-- ==== Sys2Proof/Word.lean ====
section
/-! DEFINITION. The bit-vector types of the block (R18): every value is an unsigned bit vector, bit 0 least significant. -/

namespace Sys2Proof

/-- 8 bits: a byte of configuration space, a bus number, a devfn, a status code. -/
abbrev Byte := BitVec 8

/-- 16 bits: a register offset on the master port, the PCI command register. -/
abbrev Half := BitVec 16

/-- 32 bits: every register behind the windows, a token, a mask (R100). -/
abbrev Word := BitVec 32

end Sys2Proof
end

