-- ==== Sys2Proof/Config.lean ====
section
/-! DEFINITION. The parameter record Cfg of R9 to R16, its constraints R17, and the free values that the spec leaves open. -/

namespace Sys2Proof

/-- The two readings of a misaligned configuration access (R104). -/
inductive MisalignPolicy where
  /-- A misaligned half-word or dword access is refused with ERR_MISALIGNED. -/
  | refuse
  /-- The lane formulas are applied as written, at 32-bit width. -/
  | literal
deriving DecidableEq, Repr

/-- The three identification registers that the root function's header may mirror (R326). -/
inductive IdReg where
  | id
  | cls
  | subid
deriving DecidableEq, Repr

/-- R9: every number the rules name. A state carries its Cfg, so a statement over all states is over all Cfg (log 1). -/
structure Cfg where
  -- R10: timing and retry
  waitretryMax : Nat
  tBusy : Word
  tPhywr : Word
  tClkon : Word
  tPlldrv : Word
  tClkgen : Word
  tLink : Word
  /-- R10: one time unit in milliseconds; no rule depends on it. -/
  tuMilliseconds : Nat
  -- R12: register offsets, bridge window
  offPcimsk : Half
  offCfgaddr : Half
  offCfgdata : Half
  offMembase : Half
  offIobase : Half
  -- R12: register offsets, subsystem window
  offBar0setup : Half
  offImbasebar0 : Half
  offId : Half
  offClass : Half
  offSubid : Half
  offStatus : Half
  offPhycfg : Half
  -- R12: register offsets, system-control space
  offSyscfg1 : Half
  offClkcfg1 : Half
  offGpiomode : Half
  offClkgen0 : Half
  offClkgen1 : Half
  offPpllcfg1 : Half
  offPplldrv : Half
  -- R13: system-control masks
  mGpiomuxRsv : Word
  mHostsel : Word
  mPcieClkEn : Word
  plldrvAClr : Word
  plldrvASet : Word
  mPllLock : Word
  plldrvBClr : Word
  plldrvBSet : Word
  slotcfgClr : Word
  slotcfgSet : Word
  clkgen0Clr : Word
  clkgen0Set : Word
  clkgen1Clr : Word
  clkgen1Set : Word
  plldrvPdClr : Word
  plldrvPdSet : Word
  -- R14: bit positions in the block's own words
  tokenEn : Word
  mPhyBusy : Word
  phyWriteMode : Word
  phyAddrShift : Nat
  phyDataShift : Nat
  bar0Mask2g : Word
  bar0En : Word
  mLinkUp : Word
  -- R15: boundary constants
  inbSize : Nat
  membaseSentinel : Word
  hostMemBase : Word
  idWord : Word
  classWord : Word
  subidWord : Word
  ioWinBase : Word
  ioWinSize : Word
  memWinBase : Word
  memWinSize : Word
  irqPcie0 : Byte
  mPcimskLegacy : Word
  /-- R15: the region reserved for on-chip registers, (base, size); OPEN-1. -/
  onchipBase : Nat
  onchipSize : Nat
  -- R16: PCI housekeeping
  pciCommand : BitVec 12
  pciCacheLineSize : BitVec 12
  pciLatencyTimer : BitVec 12
  pciInterruptLine : BitVec 12
  cmdIo : Half
  cmdMemory : Half
  cmdMaster : Half
  clsValue : Byte
  latValue : Byte
  housekeepUnexpected : Bool
  misalignPolicy : MisalignPolicy
  /-- R326: which dwords of function (0,0,0) mirror an identification register; the empty list drops the map (D37). -/
  rootHdrMap : List (BitVec 10 × IdReg)
deriving DecidableEq, Repr

/-- A value the spec leaves unspecified at hardware reset (R70): the k-th one of reset number epoch, w bits.
It has no body, so no proof sees a value of it (log 3). -/
opaque Config.unspecified (w epoch k : Nat) : BitVec w

/-- The byte of configuration space at an address after hardware reset number `epoch`, where nothing was written since: the contents of `cs`
at reset are unspecified (R67, R70, R401; log 11). -/
opaque Config.csByte (epoch a : Nat) : Byte

/-- The set `Plain` of a run, unspecified and part of the launch state (R67, R70; log 11). -/
opaque Config.plainAtReset (epoch : Nat) : List (BitVec 26)

/-- What the PHY does with a word `v` for PHYCFG whose write-mode flag is clear, at position `n` of the event history: the register write
(address, data) that it starts, or none. R158 describes no such word (log 17). -/
opaque Config.phyOther (epoch n : Nat) (v : Word) : Option (Byte × Byte)

/-- The n-th `draw(32)` of the environment (R20), where the state lists no answer (log 4). -/
opaque Config.draw (n : Nat) : Word

/-- The n-th sample of `res_ok` (R241), where the state lists no answer (log 5). -/
opaque Config.resOk (n : Nat) : Bool

/-- ONCHIP_REGS (R15, OPEN-1): no default in the spec (log 1). -/
opaque Config.onchipRegs : Nat × Nat

/-- The defaults of R10 to R16 and R326; the spec marks most of them as from general knowledge (log 2). -/
def Cfg.default : Cfg where
  waitretryMax := 10
  tBusy := 100
  tPhywr := 1
  tClkon := 100
  tPlldrv := 100
  tClkgen := 50
  tLink := 100
  tuMilliseconds := 1
  offPcimsk := 0x0C
  offCfgaddr := 0x20
  offCfgdata := 0x24
  offMembase := 0x28
  offIobase := 0x2C
  offBar0setup := 0x10
  offImbasebar0 := 0x18
  offId := 0x30
  offClass := 0x34
  offSubid := 0x38
  offStatus := 0x50
  offPhycfg := 0x90
  offSyscfg1 := 0x14
  offClkcfg1 := 0x30
  offGpiomode := 0x60
  offClkgen0 := 0x7C
  offClkgen1 := 0x80
  offPpllcfg1 := 0x9C
  offPplldrv := 0xA0
  mGpiomuxRsv := 0x00010000
  mHostsel := 0x00000100
  mPcieClkEn := 0x04000000
  plldrvAClr := 0x00000000
  plldrvASet := 0x80000000
  mPllLock := 0x00800000
  plldrvBClr := 0x00060000
  plldrvBSet := 0x80080000
  slotcfgClr := 0x00000030
  slotcfgSet := 0x00000020
  clkgen0Clr := 0x80000000
  clkgen0Set := 0x80000000
  clkgen1Clr := 0x7F000000
  clkgen1Set := 0x7F000000
  plldrvPdClr := 0x00000000
  plldrvPdSet := 0x00080000
  tokenEn := 0x80000000
  mPhyBusy := 0x80000000
  phyWriteMode := 0x00800000
  phyAddrShift := 8
  phyDataShift := 0
  bar0Mask2g := 0x7FFF0000
  bar0En := 0x00000001
  mLinkUp := 0x00000001
  inbSize := 0x80000000
  membaseSentinel := 0xFFFFFFFF
  hostMemBase := 0x00000000
  idWord := 0x08021814
  classWord := 0x06040001
  subidWord := 0x28801814
  ioWinBase := 0x10160000
  ioWinSize := 0x00010000
  memWinBase := 0x20000000
  memWinSize := 0x10000000
  irqPcie0 := 4
  mPcimskLegacy := 0x00100000
  onchipBase := Config.onchipRegs.1
  onchipSize := Config.onchipRegs.2
  pciCommand := 0x04
  pciCacheLineSize := 0x0C
  pciLatencyTimer := 0x0D
  pciInterruptLine := 0x3C
  cmdIo := 0x0001
  cmdMemory := 0x0002
  cmdMaster := 0x0004
  clsValue := 0x14
  latValue := 0xFF
  housekeepUnexpected := true
  misalignPolicy := .refuse
  rootHdrMap := [(0, .id), (2, .cls), (11, .subid)]

/-- The offsets of the bridge window's registers (R12). -/
def Cfg.brOffsets (c : Cfg) : List Half :=
  [c.offPcimsk, c.offCfgaddr, c.offCfgdata, c.offMembase, c.offIobase]

/-- The offsets of the subsystem window's registers (R12). -/
def Cfg.ssOffsets (c : Cfg) : List Half :=
  [c.offBar0setup, c.offImbasebar0, c.offId, c.offClass, c.offSubid, c.offStatus, c.offPhycfg]

/-- The offsets of the system-control registers (R12). -/
def Cfg.scOffsets (c : Cfg) : List Half :=
  [c.offSyscfg1, c.offClkcfg1, c.offGpiomode, c.offClkgen0, c.offClkgen1, c.offPpllcfg1, c.offPplldrv]

/-- The half-open intervals [b, b+n) and [b', b'+n') do not meet. -/
abbrev Cfg.Apart (b n b' n' : Nat) : Prop := n = 0 ∨ n' = 0 ∨ b + n ≤ b' ∨ b' + n' ≤ b

/-- A mask with exactly one bit set. -/
abbrev Cfg.OneBit (m : Word) : Prop := m ≠ 0 ∧ m &&& (m - 1) = 0

/-- R17 (a): offsets are multiples of 4, those of one window pairwise distinct. -/
abbrev Cfg.OffsetsWf (c : Cfg) : Prop :=
  ((c.brOffsets ++ c.ssOffsets ++ c.scOffsets).all fun o => o &&& 3 == 0) = true ∧
  c.brOffsets.Nodup ∧ c.ssOffsets.Nodup ∧ c.scOffsets.Nodup

/-- R17 (c): the four PHY masks are pairwise disjoint 32-bit masks (that neither shift loses bits is read
from "32-bit masks", log 27). -/
abbrev Cfg.PhyWf (c : Cfg) : Prop :=
  c.phyAddrShift ≤ 24 ∧ c.phyDataShift ≤ 24 ∧
  c.mPhyBusy &&& c.phyWriteMode = 0 ∧
  c.mPhyBusy &&& ((0xFF : Word) <<< c.phyAddrShift) = 0 ∧
  c.mPhyBusy &&& ((0xFF : Word) <<< c.phyDataShift) = 0 ∧
  c.phyWriteMode &&& ((0xFF : Word) <<< c.phyAddrShift) = 0 ∧
  c.phyWriteMode &&& ((0xFF : Word) <<< c.phyDataShift) = 0 ∧
  ((0xFF : Word) <<< c.phyAddrShift) &&& ((0xFF : Word) <<< c.phyDataShift) = 0

/-- R17 (d), (e), (f): the token's enable bit, the BAR setup word and the inbound window. The spec gives INB_SIZE no width, and the sum of (e)
is taken without wrapping (log 32, DESIGN CHOICE). -/
abbrev Cfg.WordsWf (c : Cfg) : Prop :=
  Cfg.OneBit c.tokenEn ∧ c.tokenEn &&& 0x0FFFFFFC = 0 ∧
  Cfg.OneBit c.bar0En ∧ c.bar0En &&& c.bar0Mask2g = 0 ∧
  (c.bar0Mask2g ||| 0xFFFF).toNat + 1 = c.inbSize ∧
  c.inbSize ≠ 0 ∧ c.inbSize &&& (c.inbSize - 1) = 0 ∧
  c.hostMemBase.toNat % c.inbSize = 0

/-- R17 (g): the two outbound windows and ONCHIP_REGS do not meet. The spec gives ONCHIP_REGS no width, and the ends of the intervals are taken
without wrapping (log 32, DESIGN CHOICE). -/
abbrev Cfg.WindowsWf (c : Cfg) : Prop :=
  Cfg.Apart c.memWinBase.toNat c.memWinSize.toNat c.ioWinBase.toNat c.ioWinSize.toNat ∧
  Cfg.Apart c.memWinBase.toNat c.memWinSize.toNat c.onchipBase c.onchipSize ∧
  Cfg.Apart c.ioWinBase.toNat c.ioWinSize.toNat c.onchipBase c.onchipSize

/-- R17 (h), (i), (j): the interrupt number, the nonzero masks, the housekeeping offsets. -/
abbrev Cfg.ValuesWf (c : Cfg) : Prop :=
  c.irqPcie0 ≠ 0 ∧
  c.mPcieClkEn ≠ 0 ∧ c.mHostsel ≠ 0 ∧ c.mGpiomuxRsv ≠ 0 ∧ c.mPllLock ≠ 0 ∧ c.mPcimskLegacy ≠ 0 ∧
  c.pciCommand &&& 1 = 0 ∧
  c.pciCommand < 0x100 ∧ c.pciCacheLineSize < 0x100 ∧ c.pciLatencyTimer < 0x100 ∧ c.pciInterruptLine < 0x100

/-- R17: the constraints a Cfg must satisfy; (b) holds of every Nat. -/
abbrev Cfg.Wf (c : Cfg) : Prop :=
  c.OffsetsWf ∧ c.PhyWf ∧ c.WordsWf ∧ c.WindowsWf ∧ c.ValuesWf

end Sys2Proof
end

