-- ==== Sys2Proof/Syntax.lean ====
section
/-! DEFINITION. The operations of spec/opcode_table.json, one constructor a row, and the words that carry them on the block's ports. -/

namespace Sys2Proof

/-- The width of a configuration access: 1, 2 or 4 bytes (R152). -/
inductive Width where
  | byte
  | half
  | dword
deriving DecidableEq, Repr

/-- One constructor per row of spec/opcode_table.json. A host command carries every field of its word, the ignored
ones too, because acceptance latches them all (R151). -/
inductive Instr where
  -- CMD rows: host commands (R152)
  /-- ATTACH, R240: run link bring-up to UP or DISABLED. -/
  | attach (wdata : Word) (bus devfn : Byte) (off : BitVec 12)
  /-- MAPIRQ, R340: resolve the interrupt line of (bus, slot) and do housekeeping; slot is devfn[7:3], pin is off[2:0]. -/
  | mapirq (wdata : Word) (bus devfn : Byte) (off : BitVec 12)
  /-- CFGRD.B, R312: configuration read, one byte. -/
  | cfgrdB (wdata : Word) (bus devfn : Byte) (off : BitVec 12)
  /-- CFGRD.H, R313: configuration read, one half-word. -/
  | cfgrdH (wdata : Word) (bus devfn : Byte) (off : BitVec 12)
  /-- CFGRD.W, R314: configuration read, one dword. -/
  | cfgrdW (wdata : Word) (bus devfn : Byte) (off : BitVec 12)
  /-- CFGWR.B, R315: configuration write, one byte. -/
  | cfgwrB (wdata : Word) (bus devfn : Byte) (off : BitVec 12)
  /-- CFGWR.H, R316: configuration write, one half-word. -/
  | cfgwrH (wdata : Word) (bus devfn : Byte) (off : BitVec 12)
  /-- CFGWR.W, R317: configuration write, one dword. -/
  | cfgwrW (wdata : Word) (bus devfn : Byte) (off : BitVec 12)
  /-- ILLEGAL.0, R163, R367: reserved op 0x0. -/
  | illegal0 (wdata : Word) (bus devfn : Byte) (off : BitVec 12)
  /-- ILLEGAL.3, R163, R367: reserved op 0x3. -/
  | illegal3 (wdata : Word) (bus devfn : Byte) (off : BitVec 12)
  /-- ILLEGAL.7, R163, R367: reserved op 0x7. -/
  | illegal7 (wdata : Word) (bus devfn : Byte) (off : BitVec 12)
  /-- ILLEGAL.B, R163, R367: reserved op 0xB. -/
  | illegalB (wdata : Word) (bus devfn : Byte) (off : BitVec 12)
  /-- ILLEGAL.C-F, R163, R367: reserved ops 0xC to 0xF; lo is op[1:0]. -/
  | illegalCF (lo : BitVec 2) (wdata : Word) (bus devfn : Byte) (off : BitVec 12)
  -- MREQ rows: master-port requests (R160)
  /-- BR_RD32, R190. -/
  | brRd32 (addr : Half)
  /-- BR_WR32, R191. -/
  | brWr32 (addr : Half) (v : Word)
  /-- SS_RD32, R193. -/
  | ssRd32 (addr : Half)
  /-- SS_WR32, R194. -/
  | ssWr32 (addr : Half) (v : Word)
  /-- SC_RD32, R195. -/
  | scRd32 (addr : Half)
  /-- SC_MOD32, R196. -/
  | scMod32 (addr : Half) (clr set : Word)
  /-- RST_ASSERT, R197. -/
  | rstAssert
  /-- RST_DEASSERT, R198. -/
  | rstDeassert
  /-- DELAY, R199: n time units. -/
  | delay (n : Word)
  /-- LOG, R200: code and argument. -/
  | log (code : Half) (arg : Word)
  /-- REGISTER, R201. -/
  | register
  -- XREQ rows: traffic-port requests (R161)
  /-- INB_XLATE, R288. -/
  | inbXlate (addr : Word)
  /-- OUTB_MEM_XLATE, R289. -/
  | outbMemXlate (addr : Word)
  /-- OUTB_IO_XLATE, R290. -/
  | outbIoXlate (addr : Word)
  /-- XREQ.RESERVED, R161, R163: kind 3, never claimed. -/
  | xreqReserved (addr : Word)
  -- SEQ rows: steps of the bring-up sequence (R243)
  /-- SEQ.01, R243, row 1. -/
  | seq01
  /-- SEQ.02, R243, row 2. -/
  | seq02
  /-- SEQ.03, R243, row 3. -/
  | seq03
  /-- SEQ.04, R243, row 4. -/
  | seq04
  /-- SEQ.05, R243, row 5. -/
  | seq05
  /-- SEQ.06, R243, row 6. -/
  | seq06
  /-- SEQ.07, R243, row 7. -/
  | seq07
  /-- SEQ.08, R243, row 8. -/
  | seq08
  /-- SEQ.09, R243, row 9. -/
  | seq09
  /-- SEQ.10, R243, row 10. -/
  | seq10
  /-- SEQ.11, R243, row 11. -/
  | seq11
  /-- SEQ.12, R243, row 12. -/
  | seq12
  /-- SEQ.13, R243, row 13. -/
  | seq13
  /-- SEQ.14, R243, row 14. -/
  | seq14
  /-- SEQ.15, R243, row 15. -/
  | seq15
  /-- SEQ.16, R243, row 16. -/
  | seq16
  /-- SEQ.17, R243, row 17. -/
  | seq17
  /-- SEQ.18, R243, row 18. -/
  | seq18
  /-- SEQ.19, R243, row 19. -/
  | seq19
  /-- SEQ.20, R243, row 20. -/
  | seq20
  /-- SEQ.21, R243, row 21. -/
  | seq21
  /-- SEQ.22, R243, row 22. -/
  | seq22
  /-- SEQ.23, R243, row 23. -/
  | seq23
  /-- SEQ.24, R243, row 24. -/
  | seq24
  /-- SEQ.25, R243, row 25. -/
  | seq25
  /-- SEQ.26, R243, row 26. -/
  | seq26
  /-- SEQ.27, R243, row 27. -/
  | seq27
  /-- SEQ.28, R243, row 28. -/
  | seq28
  /-- SEQ.29, R243, row 29. -/
  | seq29
  /-- SEQ.30, R243, row 30. -/
  | seq30
  /-- SEQ.31, R243, row 31. -/
  | seq31
  /-- SEQ.32, R243, row 32. -/
  | seq32
  /-- SEQ.33, R243, row 33. -/
  | seq33
  /-- SEQ.34, R243, row 34. -/
  | seq34
  /-- SEQ.35, R243, row 35. -/
  | seq35
  /-- SEQ.36, R243, row 36. -/
  | seq36
  /-- SEQ.37, R243, row 37. -/
  | seq37
  /-- SEQ.38, R243, row 38. -/
  | seq38
  /-- SEQ.IDLE, R33: step index 0, the sequencer is idle. -/
  | seqIdle
  -- WIRE rows: word formats (R150)
  /-- F-TOKEN, R156: a Configuration Address Token. -/
  | fToken (ext : BitVec 4) (bus : Byte) (slot : BitVec 5) (func : BitVec 3) (reg : BitVec 6)
  /-- F-PHYW, R158: a PHY control word as written. -/
  | fPhyw (addr data : Byte)
  /-- F-BAR, R159: an inbound BAR setup word. -/
  | fBar (mask : Half) (en : BitVec 1)
  /-- F-DEVFN, R155: a device/function byte. -/
  | fDevfn (slot : BitVec 5) (func : BitVec 3)
  /-- F-CMD, R151: a host command word as a format. -/
  | fCmd (wdata : Word) (bus devfn : Byte) (off : BitVec 12) (op : BitVec 4)
  /-- F-RES, R153: a result word. -/
  | fRes (rdata : Word) (aux status : Byte)
  -- INTERNAL rows: operations that only other rules start (R152)
  /-- WAIT_PHY_IDLE, R221. -/
  | waitPhyIdle
  /-- CALIBRATE, R222. -/
  | calibrate (a d : Byte)
  /-- CAL_SEQ, R223. -/
  | calSeq
  /-- BR_MOD32, R192. -/
  | brMod32 (addr : Half) (clr set : Word)
  /-- WINCFG, R280. -/
  | wincfg
  /-- TOKEN, R311. -/
  | token (bus devfn : Byte) (off : BitVec 12)
  /-- LANE_EXTRACT, R318. -/
  | laneExtract (dw : Word) (off : BitVec 12) (w : Width)
  /-- LANE_MERGE, R319; the width is byte or half-word. -/
  | laneMerge (dw : Word) (off : BitVec 12) (w : Width) (v : Word)
  /-- ROOT_FIXUP, R341. -/
  | rootFixup
  /-- HOUSEKEEP, R344; devfn is slot << 3. -/
  | housekeep (bus devfn irq : Byte)
deriving DecidableEq, Repr

/-- A word on one of the block's ports, with the format that the port gives it (R150). -/
inductive PortWord where
  /-- The command port: F-CMD (R151). -/
  | command (w : BitVec 64)
  /-- The master port: F-MREQ (R160). -/
  | master (w : BitVec 84)
  /-- The traffic port: F-XREQ (R161). -/
  | traffic (w : BitVec 34)
  /-- A step index: F-SEQ (R162). -/
  | step (w : BitVec 6)
  /-- A word on its way to CFGADDR: F-TOKEN (R156). -/
  | tokenWord (w : Word)
  /-- A word on its way to PHYCFG: F-PHYW (R158). -/
  | phyWord (w : Word)
  /-- A word on its way to BAR0SETUP: F-BAR (R159). -/
  | barWord (w : Word)
  /-- A device/function byte: F-DEVFN (R155). -/
  | devfnByte (w : Byte)
  /-- A command word taken as a format, before its op is looked at: F-CMD (R151). -/
  | cmdFormat (w : BitVec 64)
  /-- A result word: F-RES (R153). -/
  | resultWord (w : BitVec 64)
deriving DecidableEq, Repr

end Sys2Proof
end

