-- ==== Sys2Proof/WellFormed.lean ====
section
/-! DEFINITION. The operand constraints the spec puts on an operation, where they do not depend on Cfg: LOG codes are 1 to 3 (R167, R202),
LANE_MERGE has width byte or half-word (R319), HOUSEKEEP addresses function 0 (R344). -/

namespace Sys2Proof

/-- The operands are those the spec gives the operation. -/
def Instr.wellFormed (i : Instr) : Bool :=
  match i with
  | .attach _ _ _ _ => true
  | .mapirq _ _ _ _ => true
  | .cfgrdB _ _ _ _ => true
  | .cfgrdH _ _ _ _ => true
  | .cfgrdW _ _ _ _ => true
  | .cfgwrB _ _ _ _ => true
  | .cfgwrH _ _ _ _ => true
  | .cfgwrW _ _ _ _ => true
  | .illegal0 _ _ _ _ => true
  | .illegal3 _ _ _ _ => true
  | .illegal7 _ _ _ _ => true
  | .illegalB _ _ _ _ => true
  | .illegalCF _ _ _ _ _ => true
  | .brRd32 _ => true
  | .brWr32 _ _ => true
  | .ssRd32 _ => true
  | .ssWr32 _ _ => true
  | .scRd32 _ => true
  | .scMod32 _ _ _ => true
  | .rstAssert => true
  | .rstDeassert => true
  | .delay _ => true
  | .log code _ => decide (1 ≤ code.toNat ∧ code.toNat ≤ 3)
  | .register => true
  | .inbXlate _ => true
  | .outbMemXlate _ => true
  | .outbIoXlate _ => true
  | .xreqReserved _ => true
  | .seq01 => true
  | .seq02 => true
  | .seq03 => true
  | .seq04 => true
  | .seq05 => true
  | .seq06 => true
  | .seq07 => true
  | .seq08 => true
  | .seq09 => true
  | .seq10 => true
  | .seq11 => true
  | .seq12 => true
  | .seq13 => true
  | .seq14 => true
  | .seq15 => true
  | .seq16 => true
  | .seq17 => true
  | .seq18 => true
  | .seq19 => true
  | .seq20 => true
  | .seq21 => true
  | .seq22 => true
  | .seq23 => true
  | .seq24 => true
  | .seq25 => true
  | .seq26 => true
  | .seq27 => true
  | .seq28 => true
  | .seq29 => true
  | .seq30 => true
  | .seq31 => true
  | .seq32 => true
  | .seq33 => true
  | .seq34 => true
  | .seq35 => true
  | .seq36 => true
  | .seq37 => true
  | .seq38 => true
  | .seqIdle => true
  | .fToken _ _ _ _ _ => true
  | .fPhyw _ _ => true
  | .fBar _ _ => true
  | .fDevfn _ _ => true
  | .fCmd _ _ _ _ _ => true
  | .fRes _ _ _ => true
  | .waitPhyIdle => true
  | .calibrate _ _ => true
  | .calSeq => true
  | .brMod32 _ _ _ => true
  | .wincfg => true
  | .token _ _ _ => true
  | .laneExtract _ _ _ => true
  | .laneMerge _ _ w _ => decide (w ≠ .dword)
  | .rootFixup => true
  | .housekeep _ devfn _ => decide (devfn.extractLsb' 0 3 = 0)

/-- The operation has an encoding: every row but the INTERNAL ones (R169). -/
def Instr.hasEncoding (i : Instr) : Bool :=
  match i with
  | .attach _ _ _ _ => true
  | .mapirq _ _ _ _ => true
  | .cfgrdB _ _ _ _ => true
  | .cfgrdH _ _ _ _ => true
  | .cfgrdW _ _ _ _ => true
  | .cfgwrB _ _ _ _ => true
  | .cfgwrH _ _ _ _ => true
  | .cfgwrW _ _ _ _ => true
  | .illegal0 _ _ _ _ => true
  | .illegal3 _ _ _ _ => true
  | .illegal7 _ _ _ _ => true
  | .illegalB _ _ _ _ => true
  | .illegalCF _ _ _ _ _ => true
  | .brRd32 _ => true
  | .brWr32 _ _ => true
  | .ssRd32 _ => true
  | .ssWr32 _ _ => true
  | .scRd32 _ => true
  | .scMod32 _ _ _ => true
  | .rstAssert => true
  | .rstDeassert => true
  | .delay _ => true
  | .log _ _ => true
  | .register => true
  | .inbXlate _ => true
  | .outbMemXlate _ => true
  | .outbIoXlate _ => true
  | .xreqReserved _ => true
  | .seq01 => true
  | .seq02 => true
  | .seq03 => true
  | .seq04 => true
  | .seq05 => true
  | .seq06 => true
  | .seq07 => true
  | .seq08 => true
  | .seq09 => true
  | .seq10 => true
  | .seq11 => true
  | .seq12 => true
  | .seq13 => true
  | .seq14 => true
  | .seq15 => true
  | .seq16 => true
  | .seq17 => true
  | .seq18 => true
  | .seq19 => true
  | .seq20 => true
  | .seq21 => true
  | .seq22 => true
  | .seq23 => true
  | .seq24 => true
  | .seq25 => true
  | .seq26 => true
  | .seq27 => true
  | .seq28 => true
  | .seq29 => true
  | .seq30 => true
  | .seq31 => true
  | .seq32 => true
  | .seq33 => true
  | .seq34 => true
  | .seq35 => true
  | .seq36 => true
  | .seq37 => true
  | .seq38 => true
  | .seqIdle => true
  | .fToken _ _ _ _ _ => true
  | .fPhyw _ _ => true
  | .fBar _ _ => true
  | .fDevfn _ _ => true
  | .fCmd _ _ _ _ _ => true
  | .fRes _ _ _ => true
  | .waitPhyIdle => false
  | .calibrate _ _ => false
  | .calSeq => false
  | .brMod32 _ _ _ => false
  | .wincfg => false
  | .token _ _ _ => false
  | .laneExtract _ _ _ => false
  | .laneMerge _ _ _ _ => false
  | .rootFixup => false
  | .housekeep _ _ _ => false

end Sys2Proof
end

