-- ==== Sys2Proof/Decode.lean ====
section
/-! DEFINITION. Decoding of every port word (R151, R155 to R162) and, after it, the encoder. A word's port gives its format, so each format has
its own decoder; decoding is total and rejects by name. The wire formats are read in their default layout, as the opcode table draws them. -/

namespace Sys2Proof

/-- Why a word is no operation. -/
inductive Reject where
  /-- Master-port kinds 0xB to 0xF, never issued (R160, R163 (e)). -/
  | reservedMreqKind
  /-- Step indices 39 to 63, which never occur (R33, R163 (g)). -/
  | reservedStep
  /-- A token with bits 30:28 or 1:0 set or the enable bit clear, never formed (R163 (b)). -/
  | malformedToken
  /-- A PHY control word with bits 31:24 or 22:16 set or the write-mode flag clear, never written (R163 (c)). -/
  | malformedPhyWord
  /-- A BAR setup word with bits 15:1 set, never written (R163 (d)). -/
  | malformedBarWord
  /-- A result word with bits 31:16 set (R153: always 0). -/
  | malformedResult
deriving DecidableEq, Repr

/-- R151, R152, R168: a command word is total; only op decides the operation. -/
def decodeCommand (w : BitVec 64) : Instr :=
  let wdata := w.extractLsb' 32 32
  let bus := w.extractLsb' 24 8
  let devfn := w.extractLsb' 16 8
  let off := w.extractLsb' 4 12
  let op := w.extractLsb' 0 4
  match op.toNat with
  | 0x0 => .illegal0 wdata bus devfn off
  | 0x1 => .attach wdata bus devfn off
  | 0x2 => .mapirq wdata bus devfn off
  | 0x3 => .illegal3 wdata bus devfn off
  | 0x4 => .cfgrdB wdata bus devfn off
  | 0x5 => .cfgrdH wdata bus devfn off
  | 0x6 => .cfgrdW wdata bus devfn off
  | 0x7 => .illegal7 wdata bus devfn off
  | 0x8 => .cfgwrB wdata bus devfn off
  | 0x9 => .cfgwrH wdata bus devfn off
  | 0xA => .cfgwrW wdata bus devfn off
  | 0xB => .illegalB wdata bus devfn off
  | _ => .illegalCF (op.extractLsb' 0 2) wdata bus devfn off

/-- R160: a master-port request. The operand fields a kind does not use are not looked at (log 22). -/
def decodeMaster (w : BitVec 84) : Except Reject Instr :=
  let kind := w.extractLsb' 0 4
  let addr := w.extractLsb' 4 16
  let a := w.extractLsb' 20 32
  let b := w.extractLsb' 52 32
  match kind.toNat with
  | 0x0 => .ok (.brRd32 addr)
  | 0x1 => .ok (.brWr32 addr a)
  | 0x2 => .ok (.ssRd32 addr)
  | 0x3 => .ok (.ssWr32 addr a)
  | 0x4 => .ok (.scRd32 addr)
  | 0x5 => .ok (.scMod32 addr a b)
  | 0x6 => .ok .rstAssert
  | 0x7 => .ok .rstDeassert
  | 0x8 => .ok (.delay a)
  | 0x9 => .ok (.log addr a)
  | 0xA => .ok .register
  | _ => .error .reservedMreqKind

/-- R161: a traffic-port request; kind 3 is the reserved one. -/
def decodeTraffic (w : BitVec 34) : Instr :=
  let addr := w.extractLsb' 2 32
  match (w.extractLsb' 0 2).toNat with
  | 0 => .inbXlate addr
  | 1 => .outbMemXlate addr
  | 2 => .outbIoXlate addr
  | _ => .xreqReserved addr

/-- R162, R243: the row of the step table that a step index selects. -/
def decodeStep (w : BitVec 6) : Except Reject Instr :=
  match w.toNat with
  | 0 => .ok .seqIdle
  | 1 => .ok .seq01
  | 2 => .ok .seq02
  | 3 => .ok .seq03
  | 4 => .ok .seq04
  | 5 => .ok .seq05
  | 6 => .ok .seq06
  | 7 => .ok .seq07
  | 8 => .ok .seq08
  | 9 => .ok .seq09
  | 10 => .ok .seq10
  | 11 => .ok .seq11
  | 12 => .ok .seq12
  | 13 => .ok .seq13
  | 14 => .ok .seq14
  | 15 => .ok .seq15
  | 16 => .ok .seq16
  | 17 => .ok .seq17
  | 18 => .ok .seq18
  | 19 => .ok .seq19
  | 20 => .ok .seq20
  | 21 => .ok .seq21
  | 22 => .ok .seq22
  | 23 => .ok .seq23
  | 24 => .ok .seq24
  | 25 => .ok .seq25
  | 26 => .ok .seq26
  | 27 => .ok .seq27
  | 28 => .ok .seq28
  | 29 => .ok .seq29
  | 30 => .ok .seq30
  | 31 => .ok .seq31
  | 32 => .ok .seq32
  | 33 => .ok .seq33
  | 34 => .ok .seq34
  | 35 => .ok .seq35
  | 36 => .ok .seq36
  | 37 => .ok .seq37
  | 38 => .ok .seq38
  | _ => .error .reservedStep

/-- R156: the fields of a token whose enable bit is bit 31. -/
def decodeToken (w : Word) : Except Reject Instr :=
  if w.extractLsb' 28 4 = 0x8#4 ∧ w.extractLsb' 0 2 = 0#2 then
    .ok (.fToken (w.extractLsb' 24 4) (w.extractLsb' 16 8) (w.extractLsb' 11 5) (w.extractLsb' 8 3) (w.extractLsb' 2 6))
  else .error .malformedToken

/-- R158: the fields of a PHY control word with the write-mode flag at bit 23. -/
def decodePhyWord (w : Word) : Except Reject Instr :=
  if w.extractLsb' 16 16 = 0x0080#16 then .ok (.fPhyw (w.extractLsb' 8 8) (w.extractLsb' 0 8)) else .error .malformedPhyWord

/-- R159: the fields of a BAR setup word. -/
def decodeBarWord (w : Word) : Except Reject Instr :=
  if w.extractLsb' 1 15 = 0#15 then .ok (.fBar (w.extractLsb' 16 16) (w.extractLsb' 0 1)) else .error .malformedBarWord

/-- R155: slot and function of a devfn byte. -/
def decodeDevfn (w : Byte) : Instr := .fDevfn (w.extractLsb' 3 5) (w.extractLsb' 0 3)

/-- R151: the fields of a command word taken as a format. -/
def decodeCmdFormat (w : BitVec 64) : Instr :=
  .fCmd (w.extractLsb' 32 32) (w.extractLsb' 24 8) (w.extractLsb' 16 8) (w.extractLsb' 4 12) (w.extractLsb' 0 4)

/-- R153: the fields of a result word. -/
def decodeResult (w : BitVec 64) : Except Reject Instr :=
  if w.extractLsb' 16 16 = 0#16 then .ok (.fRes (w.extractLsb' 32 32) (w.extractLsb' 8 8) (w.extractLsb' 0 8)) else .error .malformedResult

/-- Decoding of any word on any port. -/
def decode (p : PortWord) : Except Reject Instr :=
  match p with
  | .command w => .ok (decodeCommand w)
  | .master w => decodeMaster w
  | .traffic w => .ok (decodeTraffic w)
  | .step w => decodeStep w
  | .tokenWord w => decodeToken w
  | .phyWord w => decodePhyWord w
  | .barWord w => decodeBarWord w
  | .devfnByte w => .ok (decodeDevfn w)
  | .cmdFormat w => .ok (decodeCmdFormat w)
  | .resultWord w => decodeResult w

/-- The port word of a row of the opcode table given as a number: the length in whole bytes tells the port
(8: step index; up to 32: wire word; 40: traffic; 64: command; 88: master), and a 32-bit word goes to the first of
token, PHY word and BAR word whose constant bits it has (log 7). -/
def tableWord (nbits w : Nat) : Option PortWord :=
  if nbits ≤ 8 then (if w < 2 ^ 6 then some (.step (BitVec.ofNat 6 w)) else none)
  else if nbits ≤ 32 then
    (if w < 2 ^ 32 then
      let v := BitVec.ofNat 32 w
      if v.extractLsb' 28 4 = 0x8#4 ∧ v.extractLsb' 0 2 = 0#2 then some (.tokenWord v)
      else if v.extractLsb' 16 16 = 0x0080#16 then some (.phyWord v)
      else some (.barWord v)
    else none)
  else if nbits ≤ 40 then (if w < 2 ^ 34 then some (.traffic (BitVec.ofNat 34 w)) else none)
  else if nbits ≤ 64 then (if w < 2 ^ 64 then some (.command (BitVec.ofNat 64 w)) else none)
  else if nbits ≤ 88 then (if w < 2 ^ 84 then some (.master (BitVec.ofNat 84 w)) else none)
  else none

/-- What the decoder reads from a row's word: none where it refuses. -/
def decodeTableWord (nbits w : Nat) : Option Instr :=
  match tableWord nbits w with
  | some p =>
    match decode p with
    | .ok i => some i
    | .error _ => none
  | none => none

/-- F-CMD from its fields (R151). -/
def encodeCommand (op : BitVec 4) (wdata : Word) (bus devfn : Byte) (off : BitVec 12) : BitVec 64 :=
  wdata ++ bus ++ devfn ++ off ++ op

/-- F-MREQ from its fields (R160): b << 52 | a << 20 | addr << 4 | kind. -/
def encodeMaster (kind : BitVec 4) (addr : Half) (a b : Word) : BitVec 84 :=
  b ++ a ++ addr ++ kind

/-- F-XREQ from its fields (R161). -/
def encodeTraffic (kind : BitVec 2) (addr : Word) : BitVec 34 :=
  addr ++ kind

/-- The word of an operation on its port, none for an INTERNAL one (R169). -/
def encode (i : Instr) : Option PortWord :=
  match i with
  | .attach wdata bus devfn off => some (.command (encodeCommand 0x1 wdata bus devfn off))
  | .mapirq wdata bus devfn off => some (.command (encodeCommand 0x2 wdata bus devfn off))
  | .cfgrdB wdata bus devfn off => some (.command (encodeCommand 0x4 wdata bus devfn off))
  | .cfgrdH wdata bus devfn off => some (.command (encodeCommand 0x5 wdata bus devfn off))
  | .cfgrdW wdata bus devfn off => some (.command (encodeCommand 0x6 wdata bus devfn off))
  | .cfgwrB wdata bus devfn off => some (.command (encodeCommand 0x8 wdata bus devfn off))
  | .cfgwrH wdata bus devfn off => some (.command (encodeCommand 0x9 wdata bus devfn off))
  | .cfgwrW wdata bus devfn off => some (.command (encodeCommand 0xA wdata bus devfn off))
  | .illegal0 wdata bus devfn off => some (.command (encodeCommand 0x0 wdata bus devfn off))
  | .illegal3 wdata bus devfn off => some (.command (encodeCommand 0x3 wdata bus devfn off))
  | .illegal7 wdata bus devfn off => some (.command (encodeCommand 0x7 wdata bus devfn off))
  | .illegalB wdata bus devfn off => some (.command (encodeCommand 0xB wdata bus devfn off))
  | .illegalCF lo wdata bus devfn off => some (.command (encodeCommand (3#2 ++ lo) wdata bus devfn off))
  | .brRd32 addr => some (.master (encodeMaster 0x0 addr 0 0))
  | .brWr32 addr v => some (.master (encodeMaster 0x1 addr v 0))
  | .ssRd32 addr => some (.master (encodeMaster 0x2 addr 0 0))
  | .ssWr32 addr v => some (.master (encodeMaster 0x3 addr v 0))
  | .scRd32 addr => some (.master (encodeMaster 0x4 addr 0 0))
  | .scMod32 addr clr set => some (.master (encodeMaster 0x5 addr clr set))
  | .rstAssert => some (.master (encodeMaster 0x6 0 0 0))
  | .rstDeassert => some (.master (encodeMaster 0x7 0 0 0))
  | .delay n => some (.master (encodeMaster 0x8 0 n 0))
  | .log code arg => some (.master (encodeMaster 0x9 code arg 0))
  | .register => some (.master (encodeMaster 0xA 0 0 0))
  | .inbXlate addr => some (.traffic (encodeTraffic 0 addr))
  | .outbMemXlate addr => some (.traffic (encodeTraffic 1 addr))
  | .outbIoXlate addr => some (.traffic (encodeTraffic 2 addr))
  | .xreqReserved addr => some (.traffic (encodeTraffic 3 addr))
  | .seq01 => some (.step 1)
  | .seq02 => some (.step 2)
  | .seq03 => some (.step 3)
  | .seq04 => some (.step 4)
  | .seq05 => some (.step 5)
  | .seq06 => some (.step 6)
  | .seq07 => some (.step 7)
  | .seq08 => some (.step 8)
  | .seq09 => some (.step 9)
  | .seq10 => some (.step 10)
  | .seq11 => some (.step 11)
  | .seq12 => some (.step 12)
  | .seq13 => some (.step 13)
  | .seq14 => some (.step 14)
  | .seq15 => some (.step 15)
  | .seq16 => some (.step 16)
  | .seq17 => some (.step 17)
  | .seq18 => some (.step 18)
  | .seq19 => some (.step 19)
  | .seq20 => some (.step 20)
  | .seq21 => some (.step 21)
  | .seq22 => some (.step 22)
  | .seq23 => some (.step 23)
  | .seq24 => some (.step 24)
  | .seq25 => some (.step 25)
  | .seq26 => some (.step 26)
  | .seq27 => some (.step 27)
  | .seq28 => some (.step 28)
  | .seq29 => some (.step 29)
  | .seq30 => some (.step 30)
  | .seq31 => some (.step 31)
  | .seq32 => some (.step 32)
  | .seq33 => some (.step 33)
  | .seq34 => some (.step 34)
  | .seq35 => some (.step 35)
  | .seq36 => some (.step 36)
  | .seq37 => some (.step 37)
  | .seq38 => some (.step 38)
  | .seqIdle => some (.step 0)
  | .fToken ext bus slot func reg => some (.tokenWord (0x8#4 ++ ext ++ bus ++ slot ++ func ++ reg ++ 0#2))
  | .fPhyw addr data => some (.phyWord (0x0080#16 ++ addr ++ data))
  | .fBar mask en => some (.barWord (mask ++ 0#15 ++ en))
  | .fDevfn slot func => some (.devfnByte (slot ++ func))
  | .fCmd wdata bus devfn off op => some (.cmdFormat (encodeCommand op wdata bus devfn off))
  | .fRes rdata aux status => some (.resultWord (rdata ++ 0#16 ++ aux ++ status))
  | .waitPhyIdle => none
  | .calibrate _ _ => none
  | .calSeq => none
  | .brMod32 _ _ _ => none
  | .wincfg => none
  | .token _ _ _ => none
  | .laneExtract _ _ _ => none
  | .laneMerge _ _ _ _ => none
  | .rootFixup => none
  | .housekeep _ _ _ => none

end Sys2Proof
end

