-- ==== Sys2Proof/Machine/State.lean ====
section
/-! DEFINITION. The state of the block and of what stands behind its windows (R30), the reasons a step can stop, and the state after hardware
reset (R70). State is plain data. -/

namespace Sys2Proof.Machine

/-- Link State (R31). -/
inductive LinkState where
  | reset
  | calibrating
  | pllWait
  | linkPoll
  | up
  | disabled
deriving DecidableEq, Repr

/-- A master-port request with its answer (R118); BR_MOD32 appears as its read and its write. -/
inductive Event where
  | brRd (off : Half) (v : Word)
  | brWr (off : Half) (v : Word)
  | ssRd (off : Half) (v : Word)
  | ssWr (off : Half) (v : Word)
  | scRd (off : Half) (v : Word)
  | scMod (off : Half) (clr set : Word)
  | rstAssert
  | rstDeassert
  | delay (n : Word)
  | log (code : Half) (arg : Word)
  | register
deriving DecidableEq, Repr

/-- The conditions of R360. -/
inductive Condition where
  /-- R361: phase 0 is the wait before the control word, phase 1 the one after it. -/
  | calTimeout (a : Byte) (phase : Nat)
  /-- R362. -/
  | pllUnlock
  /-- R363. -/
  | linkDown
  /-- R364. -/
  | unexpectedTopology (bus : Byte) (slot : BitVec 5)
  /-- R365. -/
  | resourceFail
  /-- R366. -/
  | alreadyAttached
  /-- R367. -/
  | illegalOp
  /-- R368. -/
  | notUp
  /-- R369. -/
  | misaligned
deriving DecidableEq, Repr

/-- What an operation gives to its caller (`return v`, R19); the model's own, log 9. -/
inductive Ret where
  | none
  | ok
  | timeout
  | fail
  | word (v : Word)
deriving DecidableEq, Repr

/-- One request of the PHY write log (R66, R226): PHY[addr] <- data, and whether the busy flag was seen clear after it. -/
structure PhyReq where
  addr : Byte
  data : Byte
  done : Bool
deriving DecidableEq, Repr

/-- Operand latches (R34). -/
structure Latches where
  op : BitVec 4
  bus : Byte
  devfn : Byte
  off : BitVec 12
  wdata : Word
deriving DecidableEq, Repr

/-- Result register (R35). -/
structure Result where
  status : Byte
  aux : Byte
  rdata : Word
deriving DecidableEq, Repr

/-- Working registers of the data path (R36); `outcome` is the variable of R247, R249 and R250. -/
structure Work where
  tok : Word
  dw : Word
  sh : BitVec 5
  lm : Word
  v : Word
  polls : Nat
  cala : Byte
  cald : Byte
  cmdv : Half
  rb : Word
  irq : Byte
  outcome : BitVec 2
deriving DecidableEq, Repr

/-- Stored registers of the bridge window (R40, R41, R43, R44); CFGDATA has no storage (R42). -/
structure BrRegs where
  pcimsk : Word
  cfgaddr : Word
  membase : Word
  iobase : Word
deriving DecidableEq, Repr

/-- Stored registers of the subsystem window (R46 to R50); STATUS and PHYCFG read as draws (R51, R52). -/
structure SsRegs where
  bar0setup : Word
  imbasebar0 : Word
  id : Word
  cls : Word
  subid : Word
deriving DecidableEq, Repr

/-- Stored registers of the system-control space (R54 to R57, R59); PPLL_CFG1 reads as a draw (R58). -/
structure ScRegs where
  gpiomode : Word
  syscfg1 : Word
  clkcfg1 : Word
  clkgen0 : Word
  clkgen1 : Word
  pplldrv : Word
deriving DecidableEq, Repr

/-- What the outside presents to the block at one step (R20, R21; log 6). -/
inductive Input where
  /-- Nothing this time: the sequencer has the turn. -/
  | gap
  /-- Hardware reset (R400). -/
  | reset
  /-- A word on a port. -/
  | word (p : PortWord)
deriving DecidableEq, Repr

@[ext]
structure State where
  /-- Parameters (R9). -/
  cfg : Cfg
  /-- Link State (R31). -/
  ls : LinkState
  /-- Step index (R33). -/
  seq : BitVec 6
  /-- Operand latches (R34). -/
  lat : Latches
  /-- Result register (R35). -/
  res : Result
  /-- Working registers (R36). -/
  work : Work
  /-- Flags (R37). -/
  attached : Bool
  registered : Bool
  calFail : Bool
  busy : Bool
  /-- MAPIRQ(0,0) has opened the inbound BAR and has still to write its target: for the length of one request the traffic port sees the
  window open with the target WINCFG wrote (R292, R341; log 6). -/
  fixup : Bool
  /-- Last level driven on the PCIe reset line, true = asserted (R38). -/
  rstOut : Bool
  /-- Registers behind the windows (R39 to R59). -/
  br : BrRegs
  ss : SsRegs
  sc : ScRegs
  /-- PHY write log since hardware reset, oldest first (R66). The contents of the PHY registers are not in the spec and nothing reads them:
  the log starts empty at reset, which says nothing about them (log 17). -/
  phyLog : List PhyReq
  /-- The dword locations of configuration space that behave as plain storage (R67). -/
  plain : List (BitVec 26)
  /-- Configuration space as written since hardware reset: bytes by 28-bit address, rising, none equal to what an unlisted byte reads as,
  which is unspecified (R67, R70; log 11). -/
  mem : List Host.Cell
  /-- Event history, oldest first (R118). -/
  hist : List Event
  /-- Conditions raised, oldest first (R19). -/
  raised : List Condition
  /-- Read data of the answer channel (R160). -/
  ans : Word
  /-- Answer of the traffic port (R161). -/
  xHit : Bool
  xAddr : Word
  /-- Value returned by an internal operation (log 9). -/
  ret : Ret
  /-- What the outside will present, next first (R71). -/
  inputs : List Input
  /-- Answers of `draw(32)`, next first, and how many were taken (R71; log 4). -/
  draws : List Word
  drawCount : Nat
  /-- Samples of `res_ok`, next first, and how many were taken (R71; log 5). -/
  resOks : List Bool
  resOkCount : Nat
  /-- Hardware resets so far (log 18). -/
  epoch : Nat
deriving DecidableEq, Repr

/-- The machine has no trap and no memory fault (R371); the one stuck state is named. -/
inductive Fault where
  /-- Raised by the sequencer's turn when `seq` is 39 to 63, which never occurs (R33, R163 (g)). Safe: the machine stops. -/
  | noStep
deriving DecidableEq, Repr

/-- Why a step gives an operation no meaning. -/
inductive Refusal where
  /-- An arm of exec that has no meaning yet. Safe. -/
  | notModelled (mnemonic : String)
  /-- Raised by the fetch when a port word is no operation (R163). Safe. -/
  | undecodable (r : Reject)
  /-- Raised by BR_WR32, SS_WR32, SC_MOD32 and BR_MOD32 at an offset outside R202: what stands there is not in the spec (R39). Safe. -/
  | unlistedRegister (addr : Half)
  /-- Raised by BR_WR32 and BR_MOD32 of CFGDATA when CFGADDR holds no well-formed token (R42; I3). Safe. -/
  | cfgdataUnselected
deriving DecidableEq, Repr

/-- The state right after hardware reset number `epoch` (R70, R401): the Link State, the step index and the four flags
have the values the spec gives; every other register is unspecified (log 3), and so are `Plain` and the contents of configuration space (log 11).
The model's choice is that a run starts with an empty history and an empty PHY write log, so that a reset erases both (log 17, log 18),
and that x[POLLS], whose width R36 leaves open where WAITRETRY_MAX is large, starts at a value of four bits for every Cfg (log 21). -/
def State.afterReset (cfg : Cfg) (epoch : Nat) : State where
  cfg := cfg
  ls := .reset
  seq := 0
  lat := {
    op := Config.unspecified 4 epoch 0
    bus := Config.unspecified 8 epoch 1
    devfn := Config.unspecified 8 epoch 2
    off := Config.unspecified 12 epoch 3
    wdata := Config.unspecified 32 epoch 4 }
  res := {
    status := Config.unspecified 8 epoch 5
    aux := Config.unspecified 8 epoch 6
    rdata := Config.unspecified 32 epoch 7 }
  work := {
    tok := Config.unspecified 32 epoch 8
    dw := Config.unspecified 32 epoch 9
    sh := Config.unspecified 5 epoch 10
    lm := Config.unspecified 32 epoch 11
    v := Config.unspecified 32 epoch 12
    polls := (Config.unspecified 4 epoch 13).toNat
    cala := Config.unspecified 8 epoch 14
    cald := Config.unspecified 8 epoch 15
    cmdv := Config.unspecified 16 epoch 16
    rb := Config.unspecified 32 epoch 17
    irq := Config.unspecified 8 epoch 18
    outcome := Config.unspecified 2 epoch 19 }
  attached := false
  registered := false
  calFail := false
  busy := false
  fixup := false
  rstOut := (Config.unspecified 1 epoch 20).getLsbD 0
  br := {
    pcimsk := Config.unspecified 32 epoch 21
    cfgaddr := Config.unspecified 32 epoch 22
    membase := Config.unspecified 32 epoch 23
    iobase := Config.unspecified 32 epoch 24 }
  ss := {
    bar0setup := Config.unspecified 32 epoch 25
    imbasebar0 := Config.unspecified 32 epoch 26
    id := Config.unspecified 32 epoch 27
    cls := Config.unspecified 32 epoch 28
    subid := Config.unspecified 32 epoch 29 }
  sc := {
    gpiomode := Config.unspecified 32 epoch 30
    syscfg1 := Config.unspecified 32 epoch 31
    clkcfg1 := Config.unspecified 32 epoch 32
    clkgen0 := Config.unspecified 32 epoch 33
    clkgen1 := Config.unspecified 32 epoch 34
    pplldrv := Config.unspecified 32 epoch 35 }
  phyLog := []
  plain := Config.plainAtReset epoch
  mem := []
  hist := []
  raised := []
  ans := Config.unspecified 32 epoch 36
  xHit := (Config.unspecified 1 epoch 37).getLsbD 0
  xAddr := Config.unspecified 32 epoch 38
  ret := .none
  inputs := []
  draws := []
  drawCount := 0
  resOks := []
  resOkCount := 0
  epoch := epoch

/-- The machine right after its first hardware reset, with the default parameters. -/
def State.reset : State := State.afterReset Cfg.default 0

end Sys2Proof.Machine
end

