-- ==== Sys2Proof/Machine/Flags.lean ====
section
/-! DEFINITION. The flags of R37 and R38. No operation computes a flag as a side effect of arithmetic; these are the only writers of the five
flags beside acceptance and completion (Ops.lean). -/

namespace Sys2Proof.Machine

/-- R240: an admitted ATTACH sets `attached`. -/
def State.setAttached (s : State) : State := { s with attached := true }

/-- R224: an exhausted wait sets `cal_fail`, which nothing clears but hardware reset. -/
def State.setCalFail (s : State) : State := { s with calFail := true }

/-- R253: aux of a completed ATTACH: bit 7 = cal_fail, bits 1:0 = outcome. -/
def attachAux (calFail : Bool) (outcome : BitVec 2) : Byte :=
  ((BitVec.ofBool calFail).zeroExtend 8 <<< 7) ||| outcome.zeroExtend 8

end Sys2Proof.Machine
end

