-- ==== Sys2Proof/Machine/Operands.lean ====
section
/-! DEFINITION. Operand assembly (R165): the split of devfn, lanes and masks, alignment, the address token, the PHY control word, the location that a
token selects. All of it is combinational: pure functions of operands and Cfg. -/

namespace Sys2Proof.Machine

/-- R155: the device number of a devfn byte. -/
def slotOf (devfn : Byte) : BitVec 5 := devfn.extractLsb' 3 5

/-- R155: the function number of a devfn byte. -/
def funcOf (devfn : Byte) : BitVec 3 := devfn.extractLsb' 0 3

/-- R344: the devfn byte of function 0 of a slot, slot << 3. -/
def devfnOfSlot (slot : BitVec 5) : Byte := slot ++ 0#3

/-- R34: x[LANE], the byte lane of an offset. -/
def laneOf (off : BitVec 12) : BitVec 2 := off.extractLsb' 0 2

/-- R165: x[SH] = 8 * lane. -/
def laneShift (off : BitVec 12) : BitVec 5 := BitVec.ofNat 5 (8 * (laneOf off).toNat)

/-- R165: the lane mask before shifting. -/
def laneMask (w : Width) : Word :=
  match w with
  | .byte => 0xFF
  | .half => 0xFFFF
  | .dword => 0xFFFFFFFF

/-- R104: natural alignment of a configuration access. -/
def aligned (w : Width) (off : BitVec 12) : Bool :=
  match w with
  | .byte => true
  | .half => off.extractLsb' 0 1 == 0#1
  | .dword => off.extractLsb' 0 2 == 0#2

/-- R318: LANE_EXTRACT. -/
def laneExtract (dw : Word) (off : BitVec 12) (w : Width) : Word :=
  match w with
  | .dword => dw
  | _ => (dw >>> (laneShift off).toNat) &&& laneMask w

/-- R315, R316: x[LM], the lane mask in place. -/
def laneMaskAt (off : BitVec 12) (w : Width) : Word := laneMask w <<< (laneShift off).toNat

/-- R319: LANE_MERGE. -/
def laneMerge (dw : Word) (off : BitVec 12) (w : Width) (v : Word) : Word :=
  (dw &&& ~~~(laneMaskAt off w)) ||| ((v &&& laneMask w) <<< (laneShift off).toNat)

/-- R311: TOKEN, the Configuration Address Token. -/
def token (cfg : Cfg) (bus devfn : Byte) (off : BitVec 12) : Word :=
  (((off.zeroExtend 32 >>> 8) &&& 0xF) <<< 24) ||| (bus.zeroExtend 32 <<< 16) ||| ((slotOf devfn).zeroExtend 32 <<< 11)
    ||| ((funcOf devfn).zeroExtend 32 <<< 8) ||| (off.zeroExtend 32 &&& 0xFC) ||| cfg.tokenEn

/-- R158: the control word CALIBRATE writes. -/
def phyControl (cfg : Cfg) (a d : Byte) : Word :=
  cfg.phyWriteMode ||| (a.zeroExtend 32 <<< cfg.phyAddrShift) ||| (d.zeroExtend 32 <<< cfg.phyDataShift)

/-- R158: a word written to PHYCFG asks for a PHY register write when its write-mode flag is set, whatever the bits outside its fields are
(log 17). -/
def phyIsWrite (cfg : Cfg) (v : Word) : Bool := v &&& cfg.phyWriteMode == cfg.phyWriteMode

/-- R158: the request that a control word makes. -/
def phyRequest (cfg : Cfg) (v : Word) : PhyReq where
  addr := (v >>> cfg.phyAddrShift).extractLsb' 0 8
  data := (v >>> cfg.phyDataShift).extractLsb' 0 8
  done := false

/-- R42, R163 (b): CFGADDR selects a location when its enable bit is set and no bit outside the token's fields is. R42 leaves open what
an access to CFGDATA does before CFGADDR was ever written; the model goes by the value it holds then, the unspecified reset value (log 16). -/
def cfgSelected (cfg : Cfg) (a : Word) : Bool :=
  a &&& cfg.tokenEn != 0 && a &&& ~~~(0x0FFFFFFC ||| cfg.tokenEn) == 0

/-- R67, R156: the location a token selects, as bus (8), devfn (8), ext (4), reg (6). -/
def cfgLoc (a : Word) : BitVec 26 :=
  a.extractLsb' 16 8 ++ a.extractLsb' 8 8 ++ a.extractLsb' 24 4 ++ a.extractLsb' 2 6

/-- R67: the location (bus, slot, func, dw) that an access addresses, dw = off[11:2]. -/
def locOf (bus devfn : Byte) (off : BitVec 12) : BitVec 26 :=
  bus ++ devfn ++ off.extractLsb' 2 10

/-- R326: the identification register that a location of function (0,0,0) mirrors. -/
def rootHdrReg (cfg : Cfg) (loc : BitVec 26) : Option IdReg :=
  if loc.extractLsb' 10 16 = 0#16 then cfg.rootHdrMap.lookup (loc.extractLsb' 0 10) else none

/-- R202: the offsets a bridge write may name. -/
def brWritable (cfg : Cfg) (off : Half) : Bool := cfg.brOffsets.contains off

/-- R202: the offsets a subsystem write may name: every one but STATUS. -/
def ssWritable (cfg : Cfg) (off : Half) : Bool :=
  [cfg.offPhycfg, cfg.offBar0setup, cfg.offImbasebar0, cfg.offId, cfg.offClass, cfg.offSubid].contains off

/-- R202: the offsets a system-control modify may name: every one but PPLL_CFG1. -/
def scWritable (cfg : Cfg) (off : Half) : Bool :=
  [cfg.offGpiomode, cfg.offSyscfg1, cfg.offClkcfg1, cfg.offClkgen0, cfg.offClkgen1, cfg.offPplldrv].contains off

/-- R192, R196: clear, then set; where the masks overlap, set wins. -/
def modified (old clr set : Word) : Word := (old &&& ~~~clr) ||| set

end Sys2Proof.Machine
end

