-- ==== Sys2Proof/Machine/Ops.lean ====
section
/-! DEFINITION. The named operations over state: answers of the environment, the event history, the byte store of configuration space, the
eleven master-port requests (R190 to R201), acceptance, completion and refusal of a command, and hardware reset. -/

namespace Sys2Proof.Machine

-- The environment's answers

/-- R20: the value the next `draw(32)` gives. -/
def State.nextDraw (s : State) : Word := s.draws.headD (Config.draw s.drawCount)

/-- R241: the value the next sample of `res_ok` gives. -/
def State.nextResOk (s : State) : Bool := s.resOks.headD (Config.resOk s.resOkCount)

/-- R241: one sample of `res_ok` is taken. -/
def State.takeResOk (s : State) : State :=
  { s with resOks := s.resOks.tail, resOkCount := s.resOkCount + 1 }

/-- R19: `raise` records the condition and transfers no control. -/
def State.raise (s : State) (c : Condition) : State := { s with raised := s.raised ++ [c] }

-- The byte store of configuration space. `u` is what a byte that the store does not list reads as

/-- One byte. -/
def Memory.read (u : Nat → Byte) (m : List Host.Cell) (a : Nat) : Byte :=
  match m with
  | [] => u a
  | (b, w) :: m' => if a = b then w else Memory.read u m' a

/-- One byte written, keeping addresses rising and no entry equal to the unlisted value. -/
def Memory.write (u : Nat → Byte) (m : List Host.Cell) (a : Nat) (v : Byte) : List Host.Cell :=
  match m with
  | [] => if v = u a then [] else [(a, v)]
  | (b, w) :: m' =>
    if a < b then (if v = u a then (b, w) :: m' else (a, v) :: (b, w) :: m')
    else if a = b then (if v = u a then m' else (a, v) :: m')
    else (b, w) :: Memory.write u m' a v

/-- The canonical form: addresses strictly rising above `lo`, inside the 28-bit space, no entry equal to the unlisted value. -/
def Memory.wfFrom (u : Nat → Byte) (lo : Nat) (m : List Host.Cell) : Bool :=
  match m with
  | [] => true
  | (a, v) :: m' => decide (lo ≤ a) && decide (a < 2 ^ 28) && decide (v ≠ u a) && Memory.wfFrom u (a + 1) m'

/-- The canonical form of a store. -/
def Memory.wf (u : Nat → Byte) (m : List Host.Cell) : Bool := Memory.wfFrom u 0 m

/-- The byte address of lane 0 of a location. -/
def locAddr (loc : BitVec 26) : Nat := 4 * loc.toNat

/-- R102: the dword of a location, lane 0 in bits 7:0. -/
def Memory.readDword (u : Nat → Byte) (m : List Host.Cell) (loc : BitVec 26) : Word :=
  Memory.read u m (locAddr loc + 3) ++ Memory.read u m (locAddr loc + 2) ++ Memory.read u m (locAddr loc + 1) ++
    Memory.read u m (locAddr loc)

/-- R102: the four lanes of a dword written to a location. -/
def Memory.writeDword (u : Nat → Byte) (m : List Host.Cell) (loc : BitVec 26) (v : Word) : List Host.Cell :=
  Memory.write u (Memory.write u (Memory.write u (Memory.write u m (locAddr loc) (v.extractLsb' 0 8)) (locAddr loc + 1) (v.extractLsb' 8 8))
    (locAddr loc + 2) (v.extractLsb' 16 8)) (locAddr loc + 3) (v.extractLsb' 24 8)

/-- What a byte of configuration space that was not written since hardware reset reads as: unspecified (R67, R70, R401; log 11). -/
def State.unlisted (s : State) (a : Nat) : Byte := Config.csByte s.epoch a

/-- One byte of configuration space. -/
def State.cfgByte (s : State) (a : Nat) : Byte := Memory.read s.unlisted s.mem a

/-- The store of configuration space has its canonical form. -/
def State.memWf (s : State) : Bool := Memory.wf s.unlisted s.mem

-- Configuration space behind CFGDATA (R42, R67, R326)

/-- The value of an identification register. -/
def SsRegs.idReg (r : SsRegs) (k : IdReg) : Word :=
  match k with
  | .id => r.id
  | .cls => r.cls
  | .subid => r.subid

/-- R67, R326: what rule fixes the dword of a location, if one does. -/
def State.cfgFixed (s : State) (loc : BitVec 26) : Option Word :=
  match rootHdrReg s.cfg loc with
  | some k => some (s.ss.idReg k)
  | none => if s.plain.contains loc then some (Memory.readDword s.unlisted s.mem loc) else none

/-- R42, R67: the dword a CFGDATA read gives where a rule fixes it; without a selected location none does (log 16). -/
def State.cfgdataFixed (s : State) : Option Word :=
  if cfgSelected s.cfg s.br.cfgaddr then s.cfgFixed (cfgLoc s.br.cfgaddr) else none

/-- R67: what a CFGDATA write leaves in the store: the location takes the value if it is in `Plain` and mirrors no register. -/
def State.cfgStore (s : State) (v : Word) : List Host.Cell :=
  if cfgSelected s.cfg s.br.cfgaddr && (rootHdrReg s.cfg (cfgLoc s.br.cfgaddr)).isNone && s.plain.contains (cfgLoc s.br.cfgaddr) then
    Memory.writeDword s.unlisted s.mem (cfgLoc s.br.cfgaddr) v
  else s.mem

-- Master-port requests

/-- R110: what a rule fixes as the answer to a bridge read; elsewhere the answer is a draw (R20). -/
def State.brFixed (s : State) (off : Half) : Option Word :=
  if off = s.cfg.offCfgdata then s.cfgdataFixed
  else if off = s.cfg.offPcimsk then some s.br.pcimsk
  else if off = s.cfg.offCfgaddr then some s.br.cfgaddr
  else if off = s.cfg.offMembase then some s.br.membase
  else if off = s.cfg.offIobase then some s.br.iobase
  else none

/-- R110: what a rule fixes as the answer to a subsystem read; STATUS and PHYCFG are draws (R51, R52). -/
def State.ssFixed (s : State) (off : Half) : Option Word :=
  if off = s.cfg.offPhycfg ∨ off = s.cfg.offStatus then none
  else if off = s.cfg.offBar0setup then some s.ss.bar0setup
  else if off = s.cfg.offImbasebar0 then some s.ss.imbasebar0
  else if off = s.cfg.offId then some s.ss.id
  else if off = s.cfg.offClass then some s.ss.cls
  else if off = s.cfg.offSubid then some s.ss.subid
  else none

/-- R110: what a rule fixes as the answer to a system-control read; PPLL_CFG1 is a draw (R58). -/
def State.scFixed (s : State) (off : Half) : Option Word :=
  if off = s.cfg.offPpllcfg1 then none
  else if off = s.cfg.offGpiomode then some s.sc.gpiomode
  else if off = s.cfg.offSyscfg1 then some s.sc.syscfg1
  else if off = s.cfg.offClkcfg1 then some s.sc.clkcfg1
  else if off = s.cfg.offClkgen0 then some s.sc.clkgen0
  else if off = s.cfg.offClkgen1 then some s.sc.clkgen1
  else if off = s.cfg.offPplldrv then some s.sc.pplldrv
  else none

/-- R111: a read request and its answer: the fixed value, or the next draw. -/
def State.answered (s : State) (fixed : Option Word) (ev : Word → Event) : State :=
  { s with
    ans := fixed.getD s.nextDraw
    draws := if fixed.isNone then s.draws.tail else s.draws
    drawCount := if fixed.isNone then s.drawCount + 1 else s.drawCount
    hist := s.hist ++ [ev (fixed.getD s.nextDraw)] }

/-- R190: BR_RD32. -/
def State.brRd32 (s : State) (off : Half) : State := s.answered (s.brFixed off) (.brRd off)

/-- R193: SS_RD32. -/
def State.ssRd32 (s : State) (off : Half) : State := s.answered (s.ssFixed off) (.ssRd off)

/-- R195: SC_RD32. -/
def State.scRd32 (s : State) (off : Half) : State := s.answered (s.scFixed off) (.scRd off)

/-- R39, R191: the stored bridge registers after a write. -/
def BrRegs.write (cfg : Cfg) (r : BrRegs) (off : Half) (v : Word) : BrRegs where
  pcimsk := if off = cfg.offPcimsk then v else r.pcimsk
  cfgaddr := if off = cfg.offCfgaddr then v else r.cfgaddr
  membase := if off = cfg.offMembase then v else r.membase
  iobase := if off = cfg.offIobase then v else r.iobase

/-- R191: BR_WR32. -/
def State.brWr32 (s : State) (off : Half) (v : Word) : State :=
  { s with
    br := s.br.write s.cfg off v
    mem := if off = s.cfg.offCfgdata then s.cfgStore v else s.mem
    hist := s.hist ++ [.brWr off v] }

/-- R192: BR_MOD32, a read and then a write. -/
def State.brMod32 (s : State) (off : Half) (clr set : Word) : State :=
  let s1 := s.brRd32 off
  s1.brWr32 off (modified s1.ans clr set)

/-- R39, R194: the stored subsystem registers after a write. -/
def SsRegs.write (cfg : Cfg) (r : SsRegs) (off : Half) (v : Word) : SsRegs where
  bar0setup := if off = cfg.offBar0setup then v else r.bar0setup
  imbasebar0 := if off = cfg.offImbasebar0 then v else r.imbasebar0
  id := if off = cfg.offId then v else r.id
  cls := if off = cfg.offClass then v else r.cls
  subid := if off = cfg.offSubid then v else r.subid

/-- R52, R66, R158: the PHY requests that a word written to PHYCFG starts. A word with the write-mode flag starts the one its
fields name; the other bits, which R163 (c) has always 0, are ignored, the model's choice (log 17, DESIGN CHOICE). What a word without the flag
starts is not in the spec, a free value (log 17). -/
def State.phyStarts (s : State) (v : Word) : List PhyReq :=
  if phyIsWrite s.cfg v = true then [phyRequest s.cfg v]
  else (Config.phyOther s.epoch s.hist.length v).toList.map fun r => { addr := r.1, data := r.2, done := false }

/-- R194: SS_WR32; a word written to PHYCFG is for the PHY (R52). -/
def State.ssWr32 (s : State) (off : Half) (v : Word) : State :=
  { s with
    ss := s.ss.write s.cfg off v
    phyLog := if off = s.cfg.offPhycfg then s.phyLog ++ s.phyStarts v else s.phyLog
    hist := s.hist ++ [.ssWr off v] }

/-- R196: the system-control registers after a modify. -/
def ScRegs.modify (cfg : Cfg) (r : ScRegs) (off : Half) (clr set : Word) : ScRegs where
  gpiomode := if off = cfg.offGpiomode then modified r.gpiomode clr set else r.gpiomode
  syscfg1 := if off = cfg.offSyscfg1 then modified r.syscfg1 clr set else r.syscfg1
  clkcfg1 := if off = cfg.offClkcfg1 then modified r.clkcfg1 clr set else r.clkcfg1
  clkgen0 := if off = cfg.offClkgen0 then modified r.clkgen0 clr set else r.clkgen0
  clkgen1 := if off = cfg.offClkgen1 then modified r.clkgen1 clr set else r.clkgen1
  pplldrv := if off = cfg.offPplldrv then modified r.pplldrv clr set else r.pplldrv

/-- R196: SC_MOD32, one indivisible action; the old value is not returned. -/
def State.scMod32 (s : State) (off : Half) (clr set : Word) : State :=
  { s with
    sc := s.sc.modify s.cfg off clr set
    hist := s.hist ++ [.scMod off clr set] }

/-- R197: RST_ASSERT. -/
def State.rstAssert (s : State) : State := { s with rstOut := true, hist := s.hist ++ [.rstAssert] }

/-- R198: RST_DEASSERT. -/
def State.rstDeassert (s : State) : State := { s with rstOut := false, hist := s.hist ++ [.rstDeassert] }

/-- R199: DELAY, an event and nothing else. -/
def State.delay (s : State) (n : Word) : State := { s with hist := s.hist ++ [.delay n] }

/-- R200: LOG, an event and nothing else. -/
def State.log (s : State) (code : Half) (arg : Word) : State := { s with hist := s.hist ++ [.log code arg] }

/-- R201: REGISTER. -/
def State.register (s : State) : State := { s with registered := true, hist := s.hist ++ [.register] }

-- Commands: acceptance, completion, refusal

/-- R151: the operand latches of an accepted command, and the lock. -/
def State.accept (s : State) (op : BitVec 4) (wdata : Word) (bus devfn : Byte) (off : BitVec 12) : State :=
  { s with lat := { op := op, bus := bus, devfn := devfn, off := off, wdata := wdata }, busy := true }

/-- R35, R151: the result is written and the lock released. -/
def State.complete (s : State) (status aux : Byte) (rdata : Word) : State :=
  { s with res := { status := status, aux := aux, rdata := rdata }, busy := false }

/-- R415: a word presented while `busy = 1` is not latched; otherwise the command runs. -/
def State.onPort (s : State) (f : State → State) : State := if s.busy then s else f s

/-- R154: OK. -/
def statusOk : Byte := 0x00
/-- R154: ERR_ILLEGAL_OP. -/
def statusIllegalOp : Byte := 0x81
/-- R154: ERR_NOT_UP. -/
def statusNotUp : Byte := 0x82
/-- R154: ERR_RESOURCE. -/
def statusResource : Byte := 0x83
/-- R154: ERR_ALREADY_ATTACHED. -/
def statusAlreadyAttached : Byte := 0x84
/-- R154: ERR_MISALIGNED. -/
def statusMisaligned : Byte := 0x85

/-- R360, R371: what the block has in place of an exception: the condition is recorded and the command completes with its
status; no state is saved, no mode changes, control goes nowhere. -/
def State.refuse (s : State) (c : Condition) (status : Byte) : State := (s.raise c).complete status 0 0

/-- R400, R401, R419: hardware reset. The parameters, the outside's remaining inputs and answers stay; all else starts afresh,
unspecified values with it, the event history and the PHY write log empty (log 18). -/
def State.hardwareReset (s : State) : State :=
  { State.afterReset s.cfg (s.epoch + 1) with
    inputs := s.inputs
    draws := s.draws
    drawCount := s.drawCount
    resOks := s.resOks
    resOkCount := s.resOkCount }

end Sys2Proof.Machine
end

