-- ==== Sys2Proof/Machine/ConfigAccess.lean ====
section
/-! DEFINITION. The Configuration-Space Access Protocol (44_config_access.md): the engine's two bodies, which MAPIRQ calls too, and the six host
commands around them. -/

namespace Sys2Proof.Machine

/-- R310 (1), (2): the token formed and written to CFGADDR. -/
def State.cfgSelect (s : State) (bus devfn : Byte) (off : BitVec 12) : State :=
  { s with work := { s.work with tok := token s.cfg bus devfn off } }.brWr32 s.cfg.offCfgaddr (token s.cfg bus devfn off)

/-- The addressed dword read through CFGDATA into x[DW] (R312 to R316). -/
def State.cfgFetch (s : State) (bus devfn : Byte) (off : BitVec 12) : State :=
  let s1 := (s.cfgSelect bus devfn off).brRd32 s.cfg.offCfgdata
  { s1 with work := { s1.work with dw := s1.ans } }

/-- R312 to R314: the body of CFGRD; a dword read sets no lane shift. -/
def State.cfgRead (s : State) (w : Width) (bus devfn : Byte) (off : BitVec 12) : State :=
  let s1 := s.cfgFetch bus devfn off
  match w with
  | .dword => s1
  | _ => { s1 with work := { s1.work with sh := laneShift off } }

/-- R315, R316: the merge of a narrow write, in x[SH], x[LM] and x[DW]. -/
def State.cfgMerge (s : State) (w : Width) (off : BitVec 12) (v : Word) : State :=
  { s with work := { s.work with sh := laneShift off, lm := laneMaskAt off w, dw := laneMerge s.work.dw off w v } }

/-- R315 to R317: the body of CFGWR; a dword write reads nothing. -/
def State.cfgWrite (s : State) (w : Width) (bus devfn : Byte) (off : BitVec 12) (v : Word) : State :=
  match w with
  | .dword => (s.cfgSelect bus devfn off).brWr32 s.cfg.offCfgdata v
  | _ =>
    let s1 := (s.cfgFetch bus devfn off).cfgMerge w off v
    s1.brWr32 s.cfg.offCfgdata s1.work.dw

/-- R310, R168: why a configuration access is turned away, if it is: NotUp, then Misaligned. -/
def State.cfgRefusal (s : State) (w : Width) (off : BitVec 12) : Option (Condition × Byte) :=
  if s.ls ≠ .up then some (.notUp, statusNotUp)
  else if aligned w off = false ∧ s.cfg.misalignPolicy = .refuse then some (.misaligned, statusMisaligned)
  else none

/-- R312 to R314: CFGRD after acceptance. -/
def State.cfgrdBody (s : State) (w : Width) (bus devfn : Byte) (off : BitVec 12) : State :=
  match s.cfgRefusal w off with
  | some (c, st) => s.refuse c st
  | none =>
    let s1 := s.cfgRead w bus devfn off
    s1.complete statusOk 0 (laneExtract s1.work.dw off w)

/-- R315 to R317: CFGWR after acceptance. -/
def State.cfgwrBody (s : State) (w : Width) (bus devfn : Byte) (off : BitVec 12) (v : Word) : State :=
  match s.cfgRefusal w off with
  | some (c, st) => s.refuse c st
  | none => (s.cfgWrite w bus devfn off v).complete statusOk 0 0

/-- R312: CFGRD.B. -/
def execCfgrdB (wdata : Word) (bus devfn : Byte) (off : BitVec 12) (s : State) : Host.Outcome State Fault Refusal :=
  .next (s.onPort fun s => (s.accept 0x4 wdata bus devfn off).cfgrdBody .byte bus devfn off)

/-- R313: CFGRD.H. -/
def execCfgrdH (wdata : Word) (bus devfn : Byte) (off : BitVec 12) (s : State) : Host.Outcome State Fault Refusal :=
  .next (s.onPort fun s => (s.accept 0x5 wdata bus devfn off).cfgrdBody .half bus devfn off)

/-- R314: CFGRD.W. -/
def execCfgrdW (wdata : Word) (bus devfn : Byte) (off : BitVec 12) (s : State) : Host.Outcome State Fault Refusal :=
  .next (s.onPort fun s => (s.accept 0x6 wdata bus devfn off).cfgrdBody .dword bus devfn off)

/-- R315: CFGWR.B. -/
def execCfgwrB (wdata : Word) (bus devfn : Byte) (off : BitVec 12) (s : State) : Host.Outcome State Fault Refusal :=
  .next (s.onPort fun s => (s.accept 0x8 wdata bus devfn off).cfgwrBody .byte bus devfn off wdata)

/-- R316: CFGWR.H. -/
def execCfgwrH (wdata : Word) (bus devfn : Byte) (off : BitVec 12) (s : State) : Host.Outcome State Fault Refusal :=
  .next (s.onPort fun s => (s.accept 0x9 wdata bus devfn off).cfgwrBody .half bus devfn off wdata)

/-- R317: CFGWR.W. -/
def execCfgwrW (wdata : Word) (bus devfn : Byte) (off : BitVec 12) (s : State) : Host.Outcome State Fault Refusal :=
  .next (s.onPort fun s => (s.accept 0xA wdata bus devfn off).cfgwrBody .dword bus devfn off wdata)

/-- R311: TOKEN, a combinational result given to the caller; it reads no state but Cfg. -/
def execToken (bus devfn : Byte) (off : BitVec 12) (s : State) : Host.Outcome State Fault Refusal :=
  .next { s with ret := .word (token s.cfg bus devfn off) }

/-- R318: LANE_EXTRACT, a combinational result given to the caller. -/
def execLaneExtract (dw : Word) (off : BitVec 12) (w : Width) (s : State) : Host.Outcome State Fault Refusal :=
  .next { s with ret := .word (laneExtract dw off w) }

/-- R319: LANE_MERGE, a combinational result given to the caller. -/
def execLaneMerge (dw : Word) (off : BitVec 12) (w : Width) (v : Word) (s : State) : Host.Outcome State Fault Refusal :=
  .next { s with ret := .word (laneMerge dw off w v) }

end Sys2Proof.Machine
end

