-- ==== Sys2Proof/Machine/IrqRouting.lean ====
section
/-! DEFINITION. The IRQ Routing Policy (45_irq_routing.md): MAPIRQ, the fixup of the root function, the housekeeping accesses. -/

namespace Sys2Proof.Machine

/-- R341, first request of ROOT_FIXUP: the inbound BAR open. -/
def State.openInbound (s : State) : State := s.ssWr32 s.cfg.offBar0setup (s.cfg.bar0Mask2g ||| s.cfg.bar0En)

/-- R341, the rest of ROOT_FIXUP: a zero translation base, and its read-back in x[RB]. -/
def State.zeroBase (s : State) : State :=
  let s1 := (s.ssWr32 s.cfg.offImbasebar0 0).ssRd32 s.cfg.offImbasebar0
  { s1 with work := { s1.work with rb := s1.ans } }

/-- R341: ROOT_FIXUP. -/
def State.rootFixup (s : State) : State := s.openInbound.zeroBase

/-- R344: the read of the command register into x[CMDV]. -/
def State.readCommand (s : State) (bus devfn : Byte) : State :=
  let s1 := s.cfgRead .half bus devfn s.cfg.pciCommand
  { s1 with work := { s1.work with cmdv := (laneExtract s1.work.dw s.cfg.pciCommand .half).extractLsb' 0 16 } }

/-- R344: the value written back to the command register. -/
def Cfg.commandValue (c : Cfg) (cmdv : Half) : Half := cmdv ||| c.cmdMaster ||| c.cmdIo ||| c.cmdMemory

/-- R344: HOUSEKEEP, five configuration accesses. -/
def State.housekeep (s : State) (bus devfn irq : Byte) : State :=
  let c := s.cfg
  let s1 := s.cfgWrite .byte bus devfn c.pciCacheLineSize (c.clsValue.zeroExtend 32)
  let s2 := s1.cfgWrite .byte bus devfn c.pciLatencyTimer (c.latValue.zeroExtend 32)
  let s3 := s2.readCommand bus devfn
  let s4 := s3.cfgWrite .half bus devfn c.pciCommand ((Cfg.commandValue c s3.work.cmdv).zeroExtend 32)
  s4.cfgWrite .byte bus devfn c.pciInterruptLine (irq.zeroExtend 32)

/-- R340: the interrupt number is resolved into x[IRQ]. -/
def State.setIrq (s : State) (irq : Byte) : State := { s with work := { s.work with irq := irq } }

/-- R343: an unexpected (bus, slot): the condition, and LOG 3. -/
def State.logUnexpected (s : State) (bus : Byte) (slot : BitVec 5) : State :=
  (s.raise (.unexpectedTopology bus slot)).log 3 ((bus.zeroExtend 32 <<< 8) ||| slot.zeroExtend 32)

/-- R340, R343: housekeeping is done on the two expected functions, and on another when HOUSEKEEP_UNEXPECTED. -/
def State.keepsHouse (s : State) (bus : Byte) (slot : BitVec 5) : Bool :=
  slot == 0 && (bus == 0 || bus == 1) || s.cfg.housekeepUnexpected

/-- R340: the common end of the three branches: the interrupt number, the housekeeping, the result. -/
def State.mapirqFinish (s : State) (bus : Byte) (slot : BitVec 5) (irq : Byte) : State :=
  (if s.keepsHouse bus slot then (s.setIrq irq).housekeep bus (devfnOfSlot slot) irq else s.setIrq irq).complete statusOk irq 0

/-- R340 to R343: MAPIRQ once admitted, by its branch on (bus, slot). MAPIRQ(0,0) stops for one turn between the two writes of ROOT_FIXUP,
with `busy` set, so that the traffic port can meet the window that is open there (R292, log 6). -/
def State.mapirqRun (s : State) (bus : Byte) (slot : BitVec 5) : State :=
  if bus = 0 ∧ slot = 0 then { s.openInbound with fixup := true }
  else if bus = 1 ∧ slot = 0 then s.mapirqFinish bus slot s.cfg.irqPcie0
  else (s.logUnexpected bus slot).mapirqFinish bus slot 0

/-- R340, R341: the rest of MAPIRQ(0,0), from the second write of ROOT_FIXUP on. -/
def State.mapirqResume (s : State) : State := { s.zeroBase.mapirqFinish 0 0 0 with fixup := false }

/-- R340, R345: MAPIRQ after acceptance. -/
def State.mapirqBody (s : State) (bus : Byte) (slot : BitVec 5) : State :=
  if s.ls ≠ .up then s.refuse .notUp statusNotUp else s.mapirqRun bus slot

/-- R340: MAPIRQ; slot is devfn[7:3] (R151), the pin off[2:0] is accepted and ignored (R347). -/
def execMapirq (wdata : Word) (bus devfn : Byte) (off : BitVec 12) (s : State) : Host.Outcome State Fault Refusal :=
  .next (s.onPort fun s => (s.accept 0x2 wdata bus devfn off).mapirqBody bus (slotOf devfn))

/-- R341: ROOT_FIXUP. -/
def execRootFixup (s : State) : Host.Outcome State Fault Refusal := .next s.rootFixup

/-- R344: HOUSEKEEP. -/
def execHousekeep (bus devfn irq : Byte) (s : State) : Host.Outcome State Fault Refusal := .next (s.housekeep bus devfn irq)

end Sys2Proof.Machine
end

