-- ==== Sys2Proof/Machine/PhyCal.lean ====
section
/-! DEFINITION. The PHY Calibration Unit (41_phy_calibration.md): the bounded wait, one calibration command, the fixed sequence of three. -/

namespace Sys2Proof.Machine

/-- One poll of R221: read PHYCFG into x[V] and count it. -/
def State.poll (s : State) : State :=
  let s1 := s.ssRd32 s.cfg.offPhycfg
  { s1 with work := { s1.work with v := s1.ans, polls := s1.work.polls + 1 } }

/-- R52: the busy flag of the last sample. -/
def State.sampledBusy (s : State) : Bool := s.work.v &&& s.cfg.mPhyBusy != 0

/-- R221: poll; on busy, when `retries` are left, delay T_BUSY and poll again. -/
def pollLoop (retries : Nat) (s : State) : State :=
  match retries with
  | 0 => if s.poll.sampledBusy then { s.poll with ret := .timeout } else { s.poll with ret := .ok }
  | n + 1 => if s.poll.sampledBusy then pollLoop n (s.poll.delay s.cfg.tBusy) else { s.poll with ret := .ok }

/-- R221: WAIT_PHY_IDLE, WAITRETRY_MAX retries after the first poll. -/
def State.waitPhyIdle (s : State) : State :=
  pollLoop s.cfg.waitretryMax { s with work := { s.work with polls := 0 } }

/-- R222, R361: an exhausted wait: cal_fail, the condition, LOG 1 with (a << 8) | phase, and the result `fail`. -/
def State.calTimeout (s : State) (a : Byte) (phase : Nat) : State :=
  { ((s.setCalFail.raise (.calTimeout a phase)).log 1 ((a.zeroExtend 32 <<< 8) ||| BitVec.ofNat 32 phase)) with ret := .fail }

/-- R226: the newest request of the PHY write log is marked complete. -/
def markLast (l : List PhyReq) : List PhyReq :=
  match l with
  | [] => []
  | [r] => [{ r with done := true }]
  | r :: r' :: rs => r :: markLast (r' :: rs)

/-- R222: the control word written and the settling wait T_PHYWR. -/
def State.phyWrite (s : State) (a d : Byte) : State :=
  (s.ssWr32 s.cfg.offPhycfg (phyControl s.cfg a d)).delay s.cfg.tPhywr

/-- R222: the second half of CALIBRATE, after the first wait came back idle. -/
def State.calFinish (s : State) (a d : Byte) : State :=
  let s1 := (s.phyWrite a d).waitPhyIdle
  if s1.ret = .timeout then s1.calTimeout a 1 else { s1 with phyLog := markLast s1.phyLog, ret := .ok }

/-- R222: CALIBRATE: wait, write, wait; an exhausted wait ends it. -/
def State.calibrate (s : State) (a d : Byte) : State :=
  let s1 := { s with work := { s.work with cala := a, cald := d } }.waitPhyIdle
  if s1.ret = .timeout then s1.calTimeout a 0 else s1.calFinish a d

/-- R223: CAL_SEQ, the three fixed commands, results ignored. -/
def State.calSeq (s : State) : State :=
  ((s.calibrate 0x00 0x80).calibrate 0x01 0x04).calibrate 0x68 0xB4

/-- R221: WAIT_PHY_IDLE. -/
def execWaitPhyIdle (s : State) : Host.Outcome State Fault Refusal := .next s.waitPhyIdle

/-- R222: CALIBRATE. -/
def execCalibrate (a d : Byte) (s : State) : Host.Outcome State Fault Refusal := .next (s.calibrate a d)

/-- R223: CAL_SEQ. -/
def execCalSeq (s : State) : Host.Outcome State Fault Refusal := .next s.calSeq

end Sys2Proof.Machine
end

