-- ==== Sys2Proof/Machine/Sequencer.lean ====
section
/-! DEFINITION. The Link Bring-Up State Machine (42_link_bringup.md): ATTACH and the step table of R243, one definition a row. -/

namespace Sys2Proof.Machine

/-- R243: the next column. -/
def State.goto (s : State) (n : BitVec 6) : State := { s with seq := n }

/-- R32: a transition of the Link State. -/
def State.setLs (s : State) (l : LinkState) : State := { s with ls := l }

/-- R36: the last status sample, x[V]. -/
def State.sample (s : State) : State := { s with work := { s.work with v := s.ans } }

/-- R240, R252, R253: a halting step: the outcome, seq <- 0, the result of ATTACH, the lock released. -/
def State.halt (s : State) (l : LinkState) (outcome : BitVec 2) : State :=
  (({ s with work := { s.work with outcome := outcome } }.setLs l).goto 0).complete statusOk (attachAux s.calFail outcome) 0

/-- R240 to R242: ATTACH after acceptance: AlreadyAttached, then ResourceFail, else the sequence starts at step 1 and `busy` stays set. -/
def State.attachBody (s : State) : State :=
  if s.attached then s.refuse .alreadyAttached statusAlreadyAttached
  else if s.nextResOk then (s.takeResOk.setAttached).goto 1
  else s.takeResOk.refuse .resourceFail statusResource

/-- R240: ATTACH. -/
def execAttach (wdata : Word) (bus devfn : Byte) (off : BitVec 12) (s : State) : Host.Outcome State Fault Refusal :=
  .next (s.onPort fun s => (s.accept 0x1 wdata bus devfn off).attachBody)

/-- R33: step index 0: the sequencer is idle. -/
def execSeqIdle (s : State) : Host.Outcome State Fault Refusal := .next s

/-- R243 step 1, R244. -/
def execSeq01 (s : State) : Host.Outcome State Fault Refusal := .next ((s.scMod32 s.cfg.offGpiomode s.cfg.mGpiomuxRsv 0).goto 2)

/-- R243 step 2, R244. -/
def execSeq02 (s : State) : Host.Outcome State Fault Refusal := .next ((s.scMod32 s.cfg.offSyscfg1 s.cfg.mHostsel 0).goto 3)

/-- R243 step 3, R244. -/
def execSeq03 (s : State) : Host.Outcome State Fault Refusal := .next ((s.rstAssert).goto 4)

/-- R243 step 4, R244. -/
def execSeq04 (s : State) : Host.Outcome State Fault Refusal := .next ((s.scMod32 s.cfg.offClkcfg1 s.cfg.mPcieClkEn 0).goto 5)

/-- R243 step 5, R244. -/
def execSeq05 (s : State) : Host.Outcome State Fault Refusal := .next (((s.scMod32 s.cfg.offPplldrv s.cfg.plldrvAClr s.cfg.plldrvASet).setLs .calibrating).goto 6)

/-- R243 step 6, R245. -/
def execSeq06 (s : State) : Host.Outcome State Fault Refusal := .next ((s.calibrate 0x00 0x80).goto 7)

/-- R243 step 7, R245. -/
def execSeq07 (s : State) : Host.Outcome State Fault Refusal := .next ((s.calibrate 0x01 0x04).goto 8)

/-- R243 step 8, R245. -/
def execSeq08 (s : State) : Host.Outcome State Fault Refusal := .next ((s.calibrate 0x68 0xB4).goto 9)

/-- R243 step 9, R246. -/
def execSeq09 (s : State) : Host.Outcome State Fault Refusal := .next ((s.rstDeassert).goto 10)

/-- R243 step 10, R246. -/
def execSeq10 (s : State) : Host.Outcome State Fault Refusal := .next ((s.scMod32 s.cfg.offClkcfg1 0 s.cfg.mPcieClkEn).goto 11)

/-- R243 step 11, R246. -/
def execSeq11 (s : State) : Host.Outcome State Fault Refusal := .next (((s.delay s.cfg.tClkon).setLs .pllWait).goto 12)

/-- R243 step 12, R247, R248: the one sample of PPLL_CFG1. -/
def execSeq12 (s : State) : Host.Outcome State Fault Refusal :=
  let s1 := (s.scRd32 s.cfg.offPpllcfg1).sample
  .next (if s1.work.v &&& s.cfg.mPllLock = 0 then (s1.raise .pllUnlock).goto 13 else s1.goto 15)

/-- R243 step 13, R247. -/
def execSeq13 (s : State) : Host.Outcome State Fault Refusal := .next ((s.rstAssert).goto 14)

/-- R243 step 14, R247: the port is left powered down, outcome 1. -/
def execSeq14 (s : State) : Host.Outcome State Fault Refusal :=
  .next ((s.scMod32 s.cfg.offClkcfg1 s.cfg.mPcieClkEn 0).halt .disabled 1)

/-- R243 step 15, R248. -/
def execSeq15 (s : State) : Host.Outcome State Fault Refusal := .next ((s.scMod32 s.cfg.offPplldrv s.cfg.plldrvBClr s.cfg.plldrvBSet).goto 16)

/-- R243 step 16, R248. -/
def execSeq16 (s : State) : Host.Outcome State Fault Refusal := .next ((s.delay s.cfg.tPlldrv).goto 17)

/-- R243 step 17, R248. -/
def execSeq17 (s : State) : Host.Outcome State Fault Refusal := .next ((s.rstAssert).goto 18)

/-- R243 step 18, R248. -/
def execSeq18 (s : State) : Host.Outcome State Fault Refusal := .next ((s.scMod32 s.cfg.offSyscfg1 s.cfg.slotcfgClr s.cfg.slotcfgSet).goto 19)

/-- R243 step 19, R248. -/
def execSeq19 (s : State) : Host.Outcome State Fault Refusal := .next ((s.scMod32 s.cfg.offClkgen0 s.cfg.clkgen0Clr s.cfg.clkgen0Set).goto 20)

/-- R243 step 20, R248. -/
def execSeq20 (s : State) : Host.Outcome State Fault Refusal := .next ((s.scMod32 s.cfg.offClkgen1 s.cfg.clkgen1Clr s.cfg.clkgen1Set).goto 21)

/-- R243 step 21, R248. -/
def execSeq21 (s : State) : Host.Outcome State Fault Refusal := .next ((s.delay s.cfg.tClkgen).goto 22)

/-- R243 step 22, R248. -/
def execSeq22 (s : State) : Host.Outcome State Fault Refusal := .next ((s.rstDeassert).goto 23)

/-- R243 step 23, R248. -/
def execSeq23 (s : State) : Host.Outcome State Fault Refusal := .next ((s.scMod32 s.cfg.offSyscfg1 s.cfg.mHostsel 0).goto 24)

/-- R243 step 24, R248. -/
def execSeq24 (s : State) : Host.Outcome State Fault Refusal := .next (((s.delay s.cfg.tLink).setLs .linkPoll).goto 25)

/-- R243 step 25, R249, R250: the one sample of STATUS. -/
def execSeq25 (s : State) : Host.Outcome State Fault Refusal :=
  let s1 := (s.ssRd32 s.cfg.offStatus).sample
  .next (if s1.work.v &&& s.cfg.mLinkUp = 0 then (s1.raise .linkDown).goto 26 else s1.goto 30)

/-- R243 step 26, R250. -/
def execSeq26 (s : State) : Host.Outcome State Fault Refusal := .next ((s.rstAssert).goto 27)

/-- R243 step 27, R250. -/
def execSeq27 (s : State) : Host.Outcome State Fault Refusal := .next ((s.scMod32 s.cfg.offClkcfg1 s.cfg.mPcieClkEn 0).goto 28)

/-- R243 step 28, R250. -/
def execSeq28 (s : State) : Host.Outcome State Fault Refusal := .next ((s.scMod32 s.cfg.offPplldrv s.cfg.plldrvPdClr s.cfg.plldrvPdSet).goto 29)

/-- R243 step 29, R250: LOG 2 "no card", outcome 2. -/
def execSeq29 (s : State) : Host.Outcome State Fault Refusal := .next ((s.log 2 0).halt .disabled 2)

/-- R243 step 30, R281. -/
def execSeq30 (s : State) : Host.Outcome State Fault Refusal := .next ((s.brWr32 s.cfg.offMembase s.cfg.membaseSentinel).goto 31)

/-- R243 step 31, R282. -/
def execSeq31 (s : State) : Host.Outcome State Fault Refusal := .next ((s.brWr32 s.cfg.offIobase s.cfg.ioWinBase).goto 32)

/-- R243 step 32, R283. -/
def execSeq32 (s : State) : Host.Outcome State Fault Refusal := .next ((s.ssWr32 s.cfg.offBar0setup s.cfg.bar0Mask2g).goto 33)

/-- R243 step 33, R284. -/
def execSeq33 (s : State) : Host.Outcome State Fault Refusal := .next ((s.ssWr32 s.cfg.offImbasebar0 s.cfg.hostMemBase).goto 34)

/-- R243 step 34, R285. -/
def execSeq34 (s : State) : Host.Outcome State Fault Refusal := .next ((s.ssWr32 s.cfg.offId s.cfg.idWord).goto 35)

/-- R243 step 35, R285. -/
def execSeq35 (s : State) : Host.Outcome State Fault Refusal := .next ((s.ssWr32 s.cfg.offClass s.cfg.classWord).goto 36)

/-- R243 step 36, R285. -/
def execSeq36 (s : State) : Host.Outcome State Fault Refusal := .next ((s.ssWr32 s.cfg.offSubid s.cfg.subidWord).goto 37)

/-- R243 step 37, R286. -/
def execSeq37 (s : State) : Host.Outcome State Fault Refusal := .next ((s.brMod32 s.cfg.offPcimsk 0 s.cfg.mPcimskLegacy).goto 38)

/-- R243 step 38, R249, R287: REGISTER and UP, outcome 0. -/
def execSeq38 (s : State) : Host.Outcome State Fault Refusal := .next (s.register.halt .up 0)

end Sys2Proof.Machine
end

