-- ==== Sys2Proof/Machine/Command.lean ====
section
/-! DEFINITION. The command port: reserved operations (R163, R367), and F-CMD, the word that carries any command (R151). -/

namespace Sys2Proof.Machine

/-- R163, R367: a reserved op after acceptance: nothing issued, ERR_ILLEGAL_OP whatever `ls` is. -/
def State.illegalBody (s : State) : State := s.refuse .illegalOp statusIllegalOp

/-- R163: reserved op 0x0. -/
def execIllegal0 (wdata : Word) (bus devfn : Byte) (off : BitVec 12) (s : State) : Host.Outcome State Fault Refusal :=
  .next (s.onPort fun s => (s.accept 0x0 wdata bus devfn off).illegalBody)

/-- R163: reserved op 0x3. -/
def execIllegal3 (wdata : Word) (bus devfn : Byte) (off : BitVec 12) (s : State) : Host.Outcome State Fault Refusal :=
  .next (s.onPort fun s => (s.accept 0x3 wdata bus devfn off).illegalBody)

/-- R163: reserved op 0x7. -/
def execIllegal7 (wdata : Word) (bus devfn : Byte) (off : BitVec 12) (s : State) : Host.Outcome State Fault Refusal :=
  .next (s.onPort fun s => (s.accept 0x7 wdata bus devfn off).illegalBody)

/-- R163: reserved op 0xB. -/
def execIllegalB (wdata : Word) (bus devfn : Byte) (off : BitVec 12) (s : State) : Host.Outcome State Fault Refusal :=
  .next (s.onPort fun s => (s.accept 0xB wdata bus devfn off).illegalBody)

/-- R163: reserved ops 0xC to 0xF. -/
def execIllegalCF (lo : BitVec 2) (wdata : Word) (bus devfn : Byte) (off : BitVec 12) (s : State) : Host.Outcome State Fault Refusal :=
  .next (s.onPort fun s => (s.accept (3#2 ++ lo) wdata bus devfn off).illegalBody)

/-- R152: the operation an accepted command word selects. -/
def State.commandBody (s : State) (op : BitVec 4) (wdata : Word) (bus devfn : Byte) (off : BitVec 12) : State :=
  match op.toNat with
  | 0x1 => s.attachBody
  | 0x2 => s.mapirqBody bus (slotOf devfn)
  | 0x4 => s.cfgrdBody .byte bus devfn off
  | 0x5 => s.cfgrdBody .half bus devfn off
  | 0x6 => s.cfgrdBody .dword bus devfn off
  | 0x8 => s.cfgwrBody .byte bus devfn off wdata
  | 0x9 => s.cfgwrBody .half bus devfn off wdata
  | 0xA => s.cfgwrBody .dword bus devfn off wdata
  | _ => s.illegalBody

/-- R151: F-CMD: the word is accepted, its operation executed, the result written, the lock released. -/
def execFCmd (wdata : Word) (bus devfn : Byte) (off : BitVec 12) (op : BitVec 4) (s : State) : Host.Outcome State Fault Refusal :=
  .next (s.onPort fun s => (s.accept op wdata bus devfn off).commandBody op wdata bus devfn off)

end Sys2Proof.Machine
end

