-- ==== Sys2Proof/Machine/Primitives.lean ====
section
/-! DEFINITION. The master-port requests as operations (40_primitives.md, R190 to R203), BR_MOD32 among them. Each is the shared operation of Ops.lean,
held to the operand range the spec gives it (R202). -/

namespace Sys2Proof.Machine

/-- R190: BR_RD32. An offset no rule gives a register is a draw (R20; log 15). -/
def execBrRd32 (addr : Half) (s : State) : Host.Outcome State Fault Refusal := .next (s.brRd32 addr)

/-- R191, R202: why a bridge write has no meaning, if it has none. -/
def State.brWriteRefusal (s : State) (addr : Half) : Option Refusal :=
  if brWritable s.cfg addr = false then some (.unlistedRegister addr)
  else if addr = s.cfg.offCfgdata ∧ cfgSelected s.cfg s.br.cfgaddr = false then some .cfgdataUnselected
  else none

/-- R191: BR_WR32. -/
def execBrWr32 (addr : Half) (v : Word) (s : State) : Host.Outcome State Fault Refusal :=
  match s.brWriteRefusal addr with
  | some r => .refused r
  | none => .next (s.brWr32 addr v)

/-- R192: BR_MOD32. -/
def execBrMod32 (addr : Half) (clr set : Word) (s : State) : Host.Outcome State Fault Refusal :=
  match s.brWriteRefusal addr with
  | some r => .refused r
  | none => .next (s.brMod32 addr clr set)

/-- R193: SS_RD32. -/
def execSsRd32 (addr : Half) (s : State) : Host.Outcome State Fault Refusal := .next (s.ssRd32 addr)

/-- R194: SS_WR32, any word at any of the offsets of R202. -/
def execSsWr32 (addr : Half) (v : Word) (s : State) : Host.Outcome State Fault Refusal :=
  if ssWritable s.cfg addr = false then .refused (.unlistedRegister addr) else .next (s.ssWr32 addr v)

/-- R195: SC_RD32. -/
def execScRd32 (addr : Half) (s : State) : Host.Outcome State Fault Refusal := .next (s.scRd32 addr)

/-- R196: SC_MOD32. -/
def execScMod32 (addr : Half) (clr set : Word) (s : State) : Host.Outcome State Fault Refusal :=
  if scWritable s.cfg addr = false then .refused (.unlistedRegister addr) else .next (s.scMod32 addr clr set)

/-- R197: RST_ASSERT. -/
def execRstAssert (s : State) : Host.Outcome State Fault Refusal := .next s.rstAssert

/-- R198: RST_DEASSERT. -/
def execRstDeassert (s : State) : Host.Outcome State Fault Refusal := .next s.rstDeassert

/-- R199: DELAY. R202 leaves a count outside the six of Cfg open; it runs by the same formula (log 29, DESIGN CHOICE). -/
def execDelay (n : Word) (s : State) : Host.Outcome State Fault Refusal := .next (s.delay n)

/-- R200: LOG. R202 leaves a code outside 1 to 3 open; it runs by the same formula (log 29, DESIGN CHOICE). -/
def execLog (code : Half) (arg : Word) (s : State) : Host.Outcome State Fault Refusal := .next (s.log code arg)

/-- R201: REGISTER. -/
def execRegister (s : State) : Host.Outcome State Fault Refusal := .next s.register

end Sys2Proof.Machine
end

