-- ==== Sys2Proof/Machine/Windows.lean ====
section
/-! DEFINITION. The Address Window Configurator and the three window comparators (43_window_config.md). -/

namespace Sys2Proof.Machine

/-- R280: WINCFG, the nine requests in order (log 10). -/
def State.wincfg (s : State) : State :=
  let c := s.cfg
  let s1 := s.brWr32 c.offMembase c.membaseSentinel
  let s2 := s1.brWr32 c.offIobase c.ioWinBase
  let s3 := s2.ssWr32 c.offBar0setup c.bar0Mask2g
  let s4 := s3.ssWr32 c.offImbasebar0 c.hostMemBase
  let s5 := s4.ssWr32 c.offId c.idWord
  let s6 := s5.ssWr32 c.offClass c.classWord
  let s7 := s6.ssWr32 c.offSubid c.subidWord
  let s8 := s7.brMod32 c.offPcimsk 0 c.mPcimskLegacy
  s8.register

/-- R280: WINCFG. -/
def execWincfg (s : State) : Host.Outcome State Fault Refusal := .next s.wincfg

/-- R288: the offset bits of the inbound window, size - 1. -/
def inbOffsetMask (bar0setup : Word) : Word := (bar0setup &&& 0xFFFF0000) ||| 0x0000FFFF

/-- R288: whether the inbound window claims an address. -/
def State.inbHit (s : State) (a : Word) : Bool :=
  s.ss.bar0setup &&& s.cfg.bar0En != 0 &&
    a &&& ~~~(inbOffsetMask s.ss.bar0setup) == s.ss.imbasebar0 &&& ~~~(inbOffsetMask s.ss.bar0setup)

/-- R288: the host address of a claimed inbound address. -/
def State.inbAddr (s : State) (a : Word) : Word :=
  (s.ss.imbasebar0 &&& ~~~(inbOffsetMask s.ss.bar0setup)) ||| (a &&& inbOffsetMask s.ss.bar0setup)

/-- R289: whether the outbound memory window claims an address. -/
def State.outbMemHit (s : State) (c : Word) : Bool :=
  s.br.membase == s.cfg.membaseSentinel && decide (s.cfg.memWinBase ≤ c) && decide (c - s.cfg.memWinBase < s.cfg.memWinSize)

/-- R290: whether the outbound I/O window claims an address. -/
def State.outbIoHit (s : State) (c : Word) : Bool :=
  decide (s.br.iobase ≤ c) && decide (c - s.br.iobase < s.cfg.ioWinSize)

/-- R161: the answer of the traffic port: hit, and the translated address, 0 on a miss. -/
def State.xAnswer (s : State) (hit : Bool) (addr : Word) : State :=
  { s with xHit := hit, xAddr := if hit then addr else 0 }

/-- R288: INB_XLATE. -/
def execInbXlate (addr : Word) (s : State) : Host.Outcome State Fault Refusal := .next (s.xAnswer (s.inbHit addr) (s.inbAddr addr))

/-- R289: OUTB_MEM_XLATE; the bus address equals the CPU address. -/
def execOutbMemXlate (addr : Word) (s : State) : Host.Outcome State Fault Refusal := .next (s.xAnswer (s.outbMemHit addr) addr)

/-- R290: OUTB_IO_XLATE; the I/O address equals the CPU address. -/
def execOutbIoXlate (addr : Word) (s : State) : Host.Outcome State Fault Refusal := .next (s.xAnswer (s.outbIoHit addr) addr)

/-- R161, R163 (e): XREQ kind 3 is never claimed. -/
def execXreqReserved (_addr : Word) (s : State) : Host.Outcome State Fault Refusal := .next (s.xAnswer false 0)

end Sys2Proof.Machine
end

