-- ==== Sys2Proof/Machine/Wire.lean ====
section
/-! DEFINITION. The wire formats as operations: what the arrival of such a word at its register does (R153, R155, R156, R158, R159; log 8). The request that
carries the word, and its event, are the master-port operation's. -/

namespace Sys2Proof.Machine

/-- R41, R156: a token arrives at the bridge's address register; it selects a location and does nothing else (R107). -/
def execFToken (ext : BitVec 4) (bus : Byte) (slot : BitVec 5) (func : BitVec 3) (reg : BitVec 6) (s : State) :
    Host.Outcome State Fault Refusal :=
  .next { s with br := { s.br with cfgaddr := token s.cfg bus (slot ++ func) (ext ++ reg ++ 0#2) } }

/-- R52, R158: a control word arrives at PHYCFG and starts a write of `data` to PHY register `addr`. -/
def execFPhyw (addr data : Byte) (s : State) : Host.Outcome State Fault Refusal :=
  .next { s with phyLog := s.phyLog ++ [{ addr := addr, data := data, done := false }] }

/-- R159: the value of a BAR setup word from its fields. -/
def barWordOf (cfg : Cfg) (mask : Half) (en : BitVec 1) : Word :=
  (mask ++ 0#16) ||| (if en = 1 then cfg.bar0En else 0)

/-- R46, R159: a setup word arrives at BAR0SETUP; the comparator sees it at once (R292). -/
def execFBar (mask : Half) (en : BitVec 1) (s : State) : Host.Outcome State Fault Refusal :=
  .next { s with ss := { s.ss with bar0setup := barWordOf s.cfg mask en } }

/-- R34, R155: a device/function byte arrives in x[DEVFN]. -/
def execFDevfn (slot : BitVec 5) (func : BitVec 3) (s : State) : Host.Outcome State Fault Refusal :=
  .next { s with lat := { s.lat with devfn := slot ++ func } }

/-- R35, R153: a result word is presented: RES holds its fields and `busy` falls. -/
def execFRes (rdata : Word) (aux status : Byte) (s : State) : Host.Outcome State Fault Refusal :=
  .next (s.complete status aux rdata)

end Sys2Proof.Machine
end

