-- ==== Sys2Proof/Machine/Dispatch.lean ====
section
/-! DEFINITION. The meaning of every operation: one arm per constructor of Instr. -/

namespace Sys2Proof.Machine

def exec (i : Instr) (s : State) : Host.Outcome State Fault Refusal :=
  match i with
  | .attach wdata bus devfn off => Sys2Proof.Machine.execAttach wdata bus devfn off s
  | .mapirq wdata bus devfn off => Sys2Proof.Machine.execMapirq wdata bus devfn off s
  | .cfgrdB wdata bus devfn off => Sys2Proof.Machine.execCfgrdB wdata bus devfn off s
  | .cfgrdH wdata bus devfn off => Sys2Proof.Machine.execCfgrdH wdata bus devfn off s
  | .cfgrdW wdata bus devfn off => Sys2Proof.Machine.execCfgrdW wdata bus devfn off s
  | .cfgwrB wdata bus devfn off => Sys2Proof.Machine.execCfgwrB wdata bus devfn off s
  | .cfgwrH wdata bus devfn off => Sys2Proof.Machine.execCfgwrH wdata bus devfn off s
  | .cfgwrW wdata bus devfn off => Sys2Proof.Machine.execCfgwrW wdata bus devfn off s
  | .illegal0 wdata bus devfn off => Sys2Proof.Machine.execIllegal0 wdata bus devfn off s
  | .illegal3 wdata bus devfn off => Sys2Proof.Machine.execIllegal3 wdata bus devfn off s
  | .illegal7 wdata bus devfn off => Sys2Proof.Machine.execIllegal7 wdata bus devfn off s
  | .illegalB wdata bus devfn off => Sys2Proof.Machine.execIllegalB wdata bus devfn off s
  | .illegalCF lo wdata bus devfn off => Sys2Proof.Machine.execIllegalCF lo wdata bus devfn off s
  | .brRd32 addr => Sys2Proof.Machine.execBrRd32 addr s
  | .brWr32 addr v => Sys2Proof.Machine.execBrWr32 addr v s
  | .ssRd32 addr => Sys2Proof.Machine.execSsRd32 addr s
  | .ssWr32 addr v => Sys2Proof.Machine.execSsWr32 addr v s
  | .scRd32 addr => Sys2Proof.Machine.execScRd32 addr s
  | .scMod32 addr clr set => Sys2Proof.Machine.execScMod32 addr clr set s
  | .rstAssert => Sys2Proof.Machine.execRstAssert s
  | .rstDeassert => Sys2Proof.Machine.execRstDeassert s
  | .delay n => Sys2Proof.Machine.execDelay n s
  | .log code arg => Sys2Proof.Machine.execLog code arg s
  | .register => Sys2Proof.Machine.execRegister s
  | .inbXlate addr => Sys2Proof.Machine.execInbXlate addr s
  | .outbMemXlate addr => Sys2Proof.Machine.execOutbMemXlate addr s
  | .outbIoXlate addr => Sys2Proof.Machine.execOutbIoXlate addr s
  | .xreqReserved addr => Sys2Proof.Machine.execXreqReserved addr s
  | .seq01 => Sys2Proof.Machine.execSeq01 s
  | .seq02 => Sys2Proof.Machine.execSeq02 s
  | .seq03 => Sys2Proof.Machine.execSeq03 s
  | .seq04 => Sys2Proof.Machine.execSeq04 s
  | .seq05 => Sys2Proof.Machine.execSeq05 s
  | .seq06 => Sys2Proof.Machine.execSeq06 s
  | .seq07 => Sys2Proof.Machine.execSeq07 s
  | .seq08 => Sys2Proof.Machine.execSeq08 s
  | .seq09 => Sys2Proof.Machine.execSeq09 s
  | .seq10 => Sys2Proof.Machine.execSeq10 s
  | .seq11 => Sys2Proof.Machine.execSeq11 s
  | .seq12 => Sys2Proof.Machine.execSeq12 s
  | .seq13 => Sys2Proof.Machine.execSeq13 s
  | .seq14 => Sys2Proof.Machine.execSeq14 s
  | .seq15 => Sys2Proof.Machine.execSeq15 s
  | .seq16 => Sys2Proof.Machine.execSeq16 s
  | .seq17 => Sys2Proof.Machine.execSeq17 s
  | .seq18 => Sys2Proof.Machine.execSeq18 s
  | .seq19 => Sys2Proof.Machine.execSeq19 s
  | .seq20 => Sys2Proof.Machine.execSeq20 s
  | .seq21 => Sys2Proof.Machine.execSeq21 s
  | .seq22 => Sys2Proof.Machine.execSeq22 s
  | .seq23 => Sys2Proof.Machine.execSeq23 s
  | .seq24 => Sys2Proof.Machine.execSeq24 s
  | .seq25 => Sys2Proof.Machine.execSeq25 s
  | .seq26 => Sys2Proof.Machine.execSeq26 s
  | .seq27 => Sys2Proof.Machine.execSeq27 s
  | .seq28 => Sys2Proof.Machine.execSeq28 s
  | .seq29 => Sys2Proof.Machine.execSeq29 s
  | .seq30 => Sys2Proof.Machine.execSeq30 s
  | .seq31 => Sys2Proof.Machine.execSeq31 s
  | .seq32 => Sys2Proof.Machine.execSeq32 s
  | .seq33 => Sys2Proof.Machine.execSeq33 s
  | .seq34 => Sys2Proof.Machine.execSeq34 s
  | .seq35 => Sys2Proof.Machine.execSeq35 s
  | .seq36 => Sys2Proof.Machine.execSeq36 s
  | .seq37 => Sys2Proof.Machine.execSeq37 s
  | .seq38 => Sys2Proof.Machine.execSeq38 s
  | .seqIdle => Sys2Proof.Machine.execSeqIdle s
  | .fToken ext bus slot func reg => Sys2Proof.Machine.execFToken ext bus slot func reg s
  | .fPhyw addr data => Sys2Proof.Machine.execFPhyw addr data s
  | .fBar mask en => Sys2Proof.Machine.execFBar mask en s
  | .fDevfn slot func => Sys2Proof.Machine.execFDevfn slot func s
  | .fCmd wdata bus devfn off op => Sys2Proof.Machine.execFCmd wdata bus devfn off op s
  | .fRes rdata aux status => Sys2Proof.Machine.execFRes rdata aux status s
  | .waitPhyIdle => Sys2Proof.Machine.execWaitPhyIdle s
  | .calibrate a d => Sys2Proof.Machine.execCalibrate a d s
  | .calSeq => Sys2Proof.Machine.execCalSeq s
  | .brMod32 addr clr set => Sys2Proof.Machine.execBrMod32 addr clr set s
  | .wincfg => Sys2Proof.Machine.execWincfg s
  | .token bus devfn off => Sys2Proof.Machine.execToken bus devfn off s
  | .laneExtract dw off w => Sys2Proof.Machine.execLaneExtract dw off w s
  | .laneMerge dw off w v => Sys2Proof.Machine.execLaneMerge dw off w v s
  | .rootFixup => Sys2Proof.Machine.execRootFixup s
  | .housekeep bus devfn irq => Sys2Proof.Machine.execHousekeep bus devfn irq s

end Sys2Proof.Machine
end

