-- ==== Sys2Proof/Machine/Fetch.lean ====
section
/-! DEFINITION. Which operation the next step runs, and on which state (R20, R151, R162, R415; log 6); and where a row's word is placed to be the
next one fetched (log 7). -/

namespace Sys2Proof.Machine

/-- The row of the step table at `seq` (R162); nothing is fetched from memory (R115). -/
def fetchStep (s : State) : Host.Outcome (Option Instr × State) Fault Refusal :=
  match decodeStep s.seq with
  | .ok i => .next (some i, s)
  | .error _ => .fault .noStep

/-- The block's own turn: the rest of a MAPIRQ(0,0) that stands between the two writes of ROOT_FIXUP (R292), else the sequencer's row. -/
def fetchTurn (s : State) : Host.Outcome (Option Instr × State) Fault Refusal :=
  if s.fixup then .next (none, s.mapirqResume) else fetchStep s

/-- A port word: its operation. -/
def fetchPort (p : PortWord) (s : State) : Host.Outcome (Option Instr × State) Fault Refusal :=
  match decode p with
  | .ok i => .next (some i, s)
  | .error r => .refused (.undecodable r)

/-- The operation that the next step runs and the state it runs on; none where the step ends with the fetch (hardware
reset, the rest of MAPIRQ(0,0)).
The head of `inputs` is taken, but for a command word while `busy = 1`, which the host holds (R415). -/
def fetch (s : State) : Host.Outcome (Option Instr × State) Fault Refusal :=
  match s.inputs with
  | [] => fetchTurn s
  | .gap :: rest => fetchTurn { s with inputs := rest }
  | .reset :: rest => .next (none, { s with inputs := rest }.hardwareReset)
  | .word (.command w) :: rest => if s.busy then fetchTurn s else fetchPort (.command w) { s with inputs := rest }
  | .word p :: rest => fetchPort p { s with inputs := rest }

/-- The word of an opcode-table row placed where the next step fetches: a step index into `seq`, with no MAPIRQ(0,0) before it; any other
word at its port; a command word also needs the port free. -/
def placeWord (s : State) (nbits w : Nat) : State :=
  match tableWord nbits w with
  | some (.step n) => { s with seq := n, fixup := false, inputs := .gap :: s.inputs }
  | some (.command c) => { s with busy := false, inputs := .word (.command c) :: s.inputs }
  | some p => { s with inputs := .word p :: s.inputs }
  | none => s

end Sys2Proof.Machine
end

