-- ==== Sys2Proof/Machine/Step.lean ====
section
/-! DEFINITION. One step of the machine: fetch, then exec (R20, R111). -/

namespace Sys2Proof.Machine

/-- One step: the fetched operation runs on the state that the fetch leaves. -/
def step (s : State) : Host.Outcome State Fault Refusal :=
  match fetch s with
  | .next (some i, s') => exec i s'
  | .next (none, s') => .next s'
  | .fault f => .fault f
  | .refused r => .refused r

/-- `s` with a row's word where `step` fetches next. -/
def State.withFetchWord (s : State) (nbits w : Nat) : State := placeWord s nbits w

end Sys2Proof.Machine
end

