-- ==== Sys2Proof/Safety.lean ====
section
/-! DEFINITION. What the statements call a good state or a good run: inputs that the outside may present, the control state, the bring-up stages,
the shape of the event history. -/

namespace Sys2Proof.Machine

/-- What the outside may present (R20, R161, R383): a command word, a traffic-port word, nothing, hardware reset. Master-port requests,
step indices and wire words are the block's own (log 7). -/
def Input.fromOutside (i : Input) : Bool :=
  match i with
  | .gap => true
  | .reset => true
  | .word (.command _) => true
  | .word (.traffic _) => true
  | .word _ => false

/-- Only the outside's own words are still to come. -/
def State.outsideOnly (s : State) : Bool := s.inputs.all Input.fromOutside

/-- The next step is not a hardware reset. -/
def State.notResetting (s : State) : Bool := s.inputs.head? != some .reset

/-- R243: the column "ls during" of the step table. -/
def lsDuring (n : BitVec 6) : LinkState :=
  if n.toNat ≤ 5 then .reset
  else if n.toNat ≤ 11 then .calibrating
  else if n.toNat ≤ 24 then .pllWait
  else .linkPoll

/-- The block's own turn comes next, and the outside presents nothing new: no input, a gap, or a command word that `busy` holds back (R415).
`rest` is what the turn leaves of the inputs. -/
abbrev State.turnNext (s : State) (rest : List Input) : Prop :=
  (s.inputs = [] ∧ rest = []) ∨ s.inputs = .gap :: rest ∨
  (s.busy = true ∧ rest = s.inputs ∧ ∃ w more, s.inputs = .word (.command w) :: more)

/-- The next step takes a command word that is a MAPIRQ of bus 0, slot 0. -/
def State.acceptsRootMapirq (s : State) : Bool :=
  match s.inputs with
  | .word (.command w) :: _ =>
    !s.busy && w.extractLsb' 0 4 == 0x2#4 && w.extractLsb' 24 8 == 0#8 && slotOf (w.extractLsb' 16 8) == 0#5
  | _ => false

/-- R33, R37, R252: how the Link State, the step index and the flags fit together between two steps; `fixup` is the pause inside
MAPIRQ(0,0) (log 6). -/
abbrev State.ControlInv (s : State) : Prop :=
  s.seq.toNat ≤ 38 ∧
  (s.busy = true ↔ s.seq ≠ 0 ∨ s.fixup = true) ∧
  (s.fixup = true → s.seq = 0 ∧ s.ls = .up) ∧
  (s.seq ≠ 0 → s.ls = lsDuring s.seq ∧ s.attached = true) ∧
  (s.seq = 0 → (s.attached = false ∧ s.ls = .reset) ∨ (s.attached = true ∧ (s.ls = .up ∨ s.ls = .disabled))) ∧
  (s.registered = true ↔ s.ls = .up)

/-- R32: the only transitions of the Link State. -/
def LinkState.mayBecome (a b : LinkState) : Bool :=
  match a, b with
  | .reset, .calibrating => true
  | .calibrating, .pllWait => true
  | .pllWait, .disabled => true
  | .pllWait, .linkPoll => true
  | .linkPoll, .up => true
  | .linkPoll, .disabled => true
  | _, _ => false

/-- The sequencer is executing a step from `lo` to `hi`. -/
abbrev State.seqIn (s : State) (lo hi : Nat) : Prop := lo ≤ s.seq.toNat ∧ s.seq.toNat ≤ hi

/-- R420, first column: the level of the reset line through bring-up and in the two terminal states. -/
abbrev State.ResetLineInv (s : State) : Prop :=
  (s.seqIn 4 9 ∨ s.seqIn 14 14 ∨ s.seqIn 18 22 ∨ s.seqIn 27 29 ∨ s.ls = .disabled → s.rstOut = true) ∧
  (s.seqIn 10 13 ∨ s.seqIn 15 17 ∨ s.seqIn 23 26 ∨ s.seqIn 30 38 ∨ s.ls = .up → s.rstOut = false)

/-- R244, R246, R420: the port clock and the host-mode select through bring-up and in the two terminal states. -/
abbrev State.ClockInv (s : State) : Prop :=
  (s.seqIn 5 10 ∨ s.seqIn 28 29 ∨ s.ls = .disabled → s.sc.clkcfg1 &&& s.cfg.mPcieClkEn = 0) ∧
  (s.seqIn 11 27 ∨ s.seqIn 30 38 ∨ s.ls = .up → s.sc.clkcfg1 &&& s.cfg.mPcieClkEn = s.cfg.mPcieClkEn) ∧
  (s.seqIn 3 18 ∨ s.seqIn 24 38 ∨ s.ls = .up ∨ s.ls = .disabled → s.sc.syscfg1 &&& s.cfg.mHostsel = 0)

/-- R280, R292, R341: the window, identification and mask registers through WINCFG and in UP. The inbound BAR is closed from step 33 on, with
the target WINCFG wrote; in UP it is so or, after a MAPIRQ(0,0), open with target 0; inside MAPIRQ(0,0) it is open with either. -/
abbrev State.WindowInv (s : State) : Prop :=
  (s.seqIn 31 38 ∨ s.ls = .up → s.br.membase = s.cfg.membaseSentinel) ∧
  (s.seqIn 32 38 ∨ s.ls = .up → s.br.iobase = s.cfg.ioWinBase) ∧
  (s.seqIn 33 38 → s.ss.bar0setup = s.cfg.bar0Mask2g) ∧
  (s.seqIn 34 38 → s.ss.imbasebar0 = s.cfg.hostMemBase) ∧
  (s.ls = .up → s.fixup = false →
    (s.ss.bar0setup = s.cfg.bar0Mask2g ∧ s.ss.imbasebar0 = s.cfg.hostMemBase) ∨
    (s.ss.bar0setup = s.cfg.bar0Mask2g ||| s.cfg.bar0En ∧ s.ss.imbasebar0 = 0)) ∧
  (s.fixup = true → s.ss.bar0setup = s.cfg.bar0Mask2g ||| s.cfg.bar0En ∧
    (s.ss.imbasebar0 = s.cfg.hostMemBase ∨ s.ss.imbasebar0 = 0)) ∧
  (s.seqIn 35 38 ∨ s.ls = .up → s.ss.id = s.cfg.idWord) ∧
  (s.seqIn 36 38 ∨ s.ls = .up → s.ss.cls = s.cfg.classWord) ∧
  (s.seqIn 37 38 ∨ s.ls = .up → s.ss.subid = s.cfg.subidWord) ∧
  (s.seqIn 38 38 ∨ s.ls = .up → s.br.pcimsk &&& s.cfg.mPcimskLegacy = s.cfg.mPcimskLegacy)

/-- The whole of bring-up, stage by stage. -/
abbrev State.BringupInv (s : State) : Prop := s.ResetLineInv ∧ s.ClockInv ∧ s.WindowInv

/-- R202: the operand ranges of the requests that the block issues. -/
def Event.inRange (cfg : Cfg) (e : Event) : Bool :=
  match e with
  | .brRd off _ => off == cfg.offPcimsk || off == cfg.offCfgdata
  | .brWr off _ => cfg.brOffsets.contains off
  | .ssRd off _ => off == cfg.offPhycfg || off == cfg.offStatus || off == cfg.offImbasebar0
  | .ssWr off _ => ssWritable cfg off
  | .scRd off _ => off == cfg.offPpllcfg1
  | .scMod off _ _ => scWritable cfg off
  | .rstAssert => true
  | .rstDeassert => true
  | .delay n => [cfg.tBusy, cfg.tPhywr, cfg.tClkon, cfg.tPlldrv, cfg.tClkgen, cfg.tLink].contains n
  | .log code _ => decide (1 ≤ code.toNat) && decide (code.toNat ≤ 3)
  | .register => true

/-- R324: an access to CFGDATA. -/
def Event.isCfgdata (cfg : Cfg) (e : Event) : Bool :=
  match e with
  | .brRd off _ => off == cfg.offCfgdata
  | .brWr off _ => off == cfg.offCfgdata
  | _ => false

/-- R324: a write of CFGADDR. -/
def Event.isCfgaddr (cfg : Cfg) (e : Event) : Bool :=
  match e with
  | .brWr off _ => off == cfg.offCfgaddr
  | _ => false

/-- R324: every CFGDATA access of a history is preceded, with only CFGDATA accesses between, by a write of CFGADDR (`sel`: one stands open). -/
def pairedFrom (cfg : Cfg) (sel : Bool) (h : List Event) : Bool :=
  match h with
  | [] => true
  | e :: es =>
    if e.isCfgdata cfg then sel && pairedFrom cfg sel es
    else pairedFrom cfg (e.isCfgaddr cfg) es

/-- R405: a read of PHYCFG that saw the busy flag clear. -/
def Event.sawIdle (cfg : Cfg) (e : Event) : Bool :=
  match e with
  | .ssRd off v => off == cfg.offPhycfg && v &&& cfg.mPhyBusy == 0
  | _ => false

/-- R405: a write of PHYCFG. -/
def Event.isPhyWrite (cfg : Cfg) (e : Event) : Bool :=
  match e with
  | .ssWr off _ => off == cfg.offPhycfg
  | _ => false

/-- R405: every PHYCFG write of a history comes right after a read that saw the busy flag clear (`idle`: the event before was one). -/
def phySafeFrom (cfg : Cfg) (idle : Bool) (h : List Event) : Bool :=
  match h with
  | [] => true
  | e :: es => (idle || !e.isPhyWrite cfg) && phySafeFrom cfg (e.sawIdle cfg) es

/-- The number of events of a history that satisfy a test. -/
def countEvents (p : Event → Bool) (h : List Event) : Nat := (h.filter p).length

-- Configuration accesses, byte by byte

/-- The number of bytes of a width (R152). -/
def widthBytes (w : Width) : Nat :=
  match w with
  | .byte => 1
  | .half => 2
  | .dword => 4

/-- The read command of a width (R152). -/
def cfgrdInstr (w : Width) (wdata : Word) (bus devfn : Byte) (off : BitVec 12) : Instr :=
  match w with
  | .byte => .cfgrdB wdata bus devfn off
  | .half => .cfgrdH wdata bus devfn off
  | .dword => .cfgrdW wdata bus devfn off

/-- The write command of a width (R152). -/
def cfgwrInstr (w : Width) (wdata : Word) (bus devfn : Byte) (off : BitVec 12) : Instr :=
  match w with
  | .byte => .cfgwrB wdata bus devfn off
  | .half => .cfgwrH wdata bus devfn off
  | .dword => .cfgwrW wdata bus devfn off

/-- R152: the op of a read command. -/
def cfgrdOp (w : Width) : BitVec 4 :=
  match w with
  | .byte => 0x4
  | .half => 0x5
  | .dword => 0x6

/-- R152: the op of a write command. -/
def cfgwrOp (w : Width) : BitVec 4 :=
  match w with
  | .byte => 0x8
  | .half => 0x9
  | .dword => 0xA

/-- R102, R104: the lowest byte lane of the dword that an access covers; a dword access covers the dword that contains its offset. -/
def firstLane (w : Width) (off : BitVec 12) : Nat :=
  match w with
  | .dword => 0
  | _ => off.toNat % 4

/-- R102, R319: byte lane k (0 to 3) is covered by the access. -/
def covers (w : Width) (off : BitVec 12) (k : Nat) : Bool :=
  decide (firstLane w off ≤ k) && decide (k < firstLane w off + widthBytes w)

/-- R102: byte k of a dword. -/
def laneByte (v : Word) (k : Nat) : Byte := v.extractLsb' (8 * k) 8

/-- R319, R320: byte lane k of the dword after a write of `v`: the value's byte where covered, the old byte elsewhere. -/
def writtenByte (w : Width) (off : BitVec 12) (old v : Word) (k : Nat) : Byte :=
  if covers w off k then laneByte v (k - firstLane w off) else laneByte old k

/-- R65, R67: the address of one byte of a function's configuration space. -/
def cfgByteAddr (bus devfn : Byte) (off : BitVec 12) : Nat := 4 * (locOf bus devfn off).toNat + off.toNat % 4

/-- R67: the location behaves as plain storage and mirrors no register (R326). -/
abbrev State.isPlain (s : State) (loc : BitVec 26) : Prop := rootHdrReg s.cfg loc = none ∧ loc ∈ s.plain

/-- R42, R67, R326: the dword that a read of a location gives. -/
def State.dwordAt (s : State) (loc : BitVec 26) : Word :=
  match rootHdrReg s.cfg loc with
  | some .id => s.ss.id
  | some .cls => s.ss.cls
  | some .subid => s.ss.subid
  | none =>
    if loc ∈ s.plain then
      s.cfgByte (4 * loc.toNat + 3) ++ s.cfgByte (4 * loc.toNat + 2) ++ s.cfgByte (4 * loc.toNat + 1) ++ s.cfgByte (4 * loc.toNat)
    else s.nextDraw

/-- The j-th answer of `draw(32)` from here on (R20). -/
def State.drawAt (s : State) (j : Nat) : Word := (s.draws.drop j).headD (Config.draw (s.drawCount + j))

/-- R20: `vs` and then `v` are the environment's answers from the j-th on. -/
abbrev State.answersFrom (s : State) (j : Nat) (vs : List Word) (v : Word) : Prop :=
  (∀ k, k < vs.length → vs[k]? = some (s.drawAt (j + k))) ∧ v = s.drawAt (j + vs.length)

/-- R19, R20: the state after n answers of `draw(32)` were taken. -/
def State.afterDraws (s : State) (n : Nat) : State := { s with draws := s.draws.drop n, drawCount := s.drawCount + n }

-- Expected histories

/-- R221: the events of the busy polls of a wait, each with the delay that follows it. -/
def busyTrail (c : Cfg) (vs : List Word) : List Event := vs.flatMap fun v => [.ssRd c.offPhycfg v, .delay c.tBusy]

/-- R221: the events of a wait: `vs` busy answers, each followed by a delay, then the last answer `v`. -/
def waitTrail (c : Cfg) (vs : List Word) (v : Word) : List Event := busyTrail c vs ++ [.ssRd c.offPhycfg v]

/-- R221: the answers of a wait that ends `ok` (idle) or `timeout`: at most WAITRETRY_MAX busy answers before the last one, and as many when
the last one is busy too. -/
abbrev waitAnswers (c : Cfg) (vs : List Word) (v : Word) (idle : Bool) : Prop :=
  vs.length ≤ c.waitretryMax ∧ (∀ u ∈ vs, u &&& c.mPhyBusy ≠ 0) ∧
  (if idle then v &&& c.mPhyBusy = 0 else v &&& c.mPhyBusy ≠ 0 ∧ vs.length = c.waitretryMax)

/-- R244: the five events from RESET to CALIBRATING. -/
def prologueEvents (c : Cfg) : List Event :=
  [.scMod c.offGpiomode c.mGpiomuxRsv 0, .scMod c.offSyscfg1 c.mHostsel 0, .rstAssert,
   .scMod c.offClkcfg1 c.mPcieClkEn 0, .scMod c.offPplldrv c.plldrvAClr c.plldrvASet]

/-- R222: the four events of one CALIBRATE with an idle PHY. -/
def idleCalEvents (c : Cfg) (a d : Byte) (u v : Word) : List Event :=
  [.ssRd c.offPhycfg u, .ssWr c.offPhycfg (phyControl c a d), .delay c.tPhywr, .ssRd c.offPhycfg v]

/-- R245: the twelve events of CALIBRATING with an idle PHY. -/
def idleCalSeqEvents (c : Cfg) (v1 v2 v3 v4 v5 v6 : Word) : List Event :=
  idleCalEvents c 0x00 0x80 v1 v2 ++ idleCalEvents c 0x01 0x04 v3 v4 ++ idleCalEvents c 0x68 0xB4 v5 v6

/-- R246: the three events from CALIBRATING to PLL_WAIT. -/
def clockOnEvents (c : Cfg) : List Event := [.rstDeassert, .scMod c.offClkcfg1 0 c.mPcieClkEn, .delay c.tClkon]

/-- R248: the ten events from PLL_WAIT to LINK_POLL after the PLL sample. -/
def lockedEvents (c : Cfg) : List Event :=
  [.scMod c.offPplldrv c.plldrvBClr c.plldrvBSet, .delay c.tPlldrv, .rstAssert, .scMod c.offSyscfg1 c.slotcfgClr c.slotcfgSet,
   .scMod c.offClkgen0 c.clkgen0Clr c.clkgen0Set, .scMod c.offClkgen1 c.clkgen1Clr c.clkgen1Set, .delay c.tClkgen, .rstDeassert,
   .scMod c.offSyscfg1 c.mHostsel 0, .delay c.tLink]

/-- R280: the ten events of WINCFG, PCIMSK reading `m`. -/
def wincfgEvents (c : Cfg) (m : Word) : List Event :=
  [.brWr c.offMembase c.membaseSentinel, .brWr c.offIobase c.ioWinBase, .ssWr c.offBar0setup c.bar0Mask2g,
   .ssWr c.offImbasebar0 c.hostMemBase, .ssWr c.offId c.idWord, .ssWr c.offClass c.classWord, .ssWr c.offSubid c.subidWord,
   .brRd c.offPcimsk m, .brWr c.offPcimsk (m ||| c.mPcimskLegacy), .register]

/-- R344: the fourteen events of HOUSEKEEP, the five reads of CFGDATA answering d1 to d5. -/
def houseEvents (c : Cfg) (bus devfn irq : Byte) (d1 d2 d3 d4 d5 : Word) : List Event :=
  [.brWr c.offCfgaddr (token c bus devfn c.pciCacheLineSize), .brRd c.offCfgdata d1,
   .brWr c.offCfgdata (laneMerge d1 c.pciCacheLineSize .byte (c.clsValue.zeroExtend 32)),
   .brWr c.offCfgaddr (token c bus devfn c.pciLatencyTimer), .brRd c.offCfgdata d2,
   .brWr c.offCfgdata (laneMerge d2 c.pciLatencyTimer .byte (c.latValue.zeroExtend 32)),
   .brWr c.offCfgaddr (token c bus devfn c.pciCommand), .brRd c.offCfgdata d3,
   .brWr c.offCfgaddr (token c bus devfn c.pciCommand), .brRd c.offCfgdata d4,
   .brWr c.offCfgdata (laneMerge d4 c.pciCommand .half
     (laneExtract d3 c.pciCommand .half ||| (c.cmdMaster ||| c.cmdIo ||| c.cmdMemory).zeroExtend 32)),
   .brWr c.offCfgaddr (token c bus devfn c.pciInterruptLine), .brRd c.offCfgdata d5,
   .brWr c.offCfgdata (laneMerge d5 c.pciInterruptLine .byte (irq.zeroExtend 32))]

/-- R344: the four dwords of a function that HOUSEKEEP can change. -/
def houseLocs (c : Cfg) (bus devfn : Byte) : List (BitVec 26) :=
  [locOf bus devfn c.pciCacheLineSize, locOf bus devfn c.pciLatencyTimer, locOf bus devfn c.pciCommand, locOf bus devfn c.pciInterruptLine]

/-- R36, R417: how many reads of PHYCFG a history holds. -/
def countPolls (c : Cfg) (h : List Event) : Nat :=
  countEvents (fun e => match e with | .ssRd off _ => off == c.offPhycfg | _ => false) h

/-- R224: a LOG request. -/
def Event.isLog (e : Event) : Bool :=
  match e with
  | .log _ _ => true
  | _ => false

/-- R225: how many delays of `n` a history holds. -/
def countDelays (n : Word) (h : List Event) : Nat :=
  countEvents (fun e => match e with | .delay m => m == n | _ => false) h

end Sys2Proof.Machine
end

