-- ==== Sys2Proof/Certificates/Slice0/Obligations.lean ====
section
/-! DEFINITION. The statements for the provers. Each docstring says which rules of spec/ it formalises; what rests on a choice of the model
names the log entry. -/

open Sys2Proof Sys2Proof.Machine

/-- O1. R151, R156, R160, R161, R162, R169. Decoding the encoded word of any operation gives that operation back, with every operand. That the
encoder writes 0 in the fields of a master-port word that a kind does not use is log 22. -/
def Obligations.DecodeOfEncodeIsTheInstruction : Prop :=
  ∀ i : Instr,
    (i.hasEncoding = true → ∃ p, encode i = some p ∧ decode p = .ok i) ∧
    (i.hasEncoding = false → encode i = none)

/-- O2. R168, R151, R161. Every 64-bit command word and every 34-bit traffic word is exactly one operation, and no bit of it is lost. -/
def Obligations.EveryCommandWordIsOneOperation : Prop :=
  (∀ w : BitVec 64, ∃ i, decode (.command w) = .ok i ∧ encode i = some (.command w)) ∧
  (∀ w : BitVec 34, ∃ i, decode (.traffic w) = .ok i ∧ encode i = some (.traffic w))

/-- O3. V30, V40, R152, R160, R158. Words written out in the spec decode to the operations the spec says they are. -/
def Obligations.SpecWordsDecode : Prop :=
  decode (.command 0xDEADBEEFABCDEF11) = .ok (.attach 0xDEADBEEF 0xAB 0xCD 0xEF1) ∧
  decode (.command 0x0000000002180012) = .ok (.mapirq 0 2 0x18 0x001) ∧
  decode (.command 0x0000000001000054) = .ok (.cfgrdB 0 1 0 0x005) ∧
  decode (.command 0x000000AB01000058) = .ok (.cfgwrB 0xAB 1 0 0x005) ∧
  decode (.command 0x200000000100010A) = .ok (.cfgwrW 0x20000000 1 0 0x010) ∧
  decode (.command 0x0000000001000043) = .ok (.illegal3 0 1 0 0x004) ∧
  decode (.master 0x000000008001000400201) = .ok (.brWr32 0x20 0x80010004) ∧
  decode (.master 0x00000000008068B400903) = .ok (.ssWr32 0x90 0x008068B4) ∧
  decode (.master 0x800800000006000000A05) = .ok (.scMod32 0xA0 0x00060000 0x80080000) ∧
  decode (.master 0x000000000000680000019) = .ok (.log 1 0x00006800) ∧
  decode (.traffic 0x048D159C) = .ok (.inbXlate 0x01234567) ∧
  decode (.step 25) = .ok .seq25 ∧
  decode (.tokenWord 0x8001083C) = .ok (.fToken 0 1 1 0 0xF) ∧
  decode (.phyWord 0x008068B4) = .ok (.fPhyw 0x68 0xB4) ∧
  decode (.barWord 0x7FFF0001) = .ok (.fBar 0x7FFF 1) ∧
  decode (.barWord 0x7FFF0000) = .ok (.fBar 0x7FFF 0)

/-- O4. R163, R33, R160, R153, R156, R158, R159. Exactly the reserved master-port kinds, step indices, tokens, PHY words, BAR words and result
words are rejected. The layouts of the register words are those of the default Cfg, and the write-mode flag stands at bit 23 (log 7). -/
def Obligations.ReservedWordsAreRejected : Prop :=
  (∀ w : BitVec 84, decode (.master w) = .error .reservedMreqKind ↔ 0xB ≤ w.toNat % 16) ∧
  (∀ w : BitVec 84, (∃ i, decode (.master w) = .ok i) ↔ w.toNat % 16 ≤ 0xA) ∧
  (∀ n : BitVec 6, decode (.step n) = .error .reservedStep ↔ 39 ≤ n.toNat) ∧
  (∀ n : BitVec 6, (∃ i, decode (.step n) = .ok i) ↔ n.toNat ≤ 38) ∧
  (∀ w : Word, (∃ i, decode (.tokenWord w) = .ok i) ↔ w.toNat / 2 ^ 28 = 8 ∧ w.toNat % 4 = 0) ∧
  (∀ w : Word, (∃ i, decode (.phyWord w) = .ok i) ↔ w.toNat / 2 ^ 16 = 0x80) ∧
  (∀ w : Word, (∃ i, decode (.barWord w) = .ok i) ↔ w.toNat % 2 ^ 16 < 2) ∧
  (∀ w : BitVec 64, (∃ i, decode (.resultWord w) = .ok i) ↔ w.toNat / 2 ^ 16 % 2 ^ 16 = 0)

/-- O5. R20, R151, R162, R33. A step runs the instruction that the presented word, or the step index, decodes to, and adds nothing to it (log
6). The list of inputs, the held word and the pause inside MAPIRQ(0,0) are the model's choice (log 6, log 18, log 24). -/
def Obligations.StepRunsTheFetchedInstruction : Prop :=
  (∀ (s : State) (p : PortWord) (rest : List Input) (i : Instr),
    s.inputs = .word p :: rest → decode p = .ok i → ((∃ w, p = .command w) → s.busy = false) →
    step s = exec i { s with inputs := rest }) ∧
  (∀ (s : State) (rest : List Input) (i : Instr),
    s.turnNext rest → s.fixup = false → decode (.step s.seq) = .ok i → step s = exec i { s with inputs := rest }) ∧
  (∀ (s : State) (rest : List Input),
    s.turnNext rest → s.fixup = true → step s = .next { s with inputs := rest }.mapirqResume) ∧
  (∀ (s : State) (rest : List Input), s.inputs = .reset :: rest → step s = .next { s with inputs := rest }.hardwareReset)

/-- O6. R415, R151, R252. A command word presented while busy = 1 is not latched: it stays presented, and the sequencer takes the step. That
the word stays at the head of the inputs and the block takes the step is the model's reading, log 24 (DEDUCED); R415 says not latched, not
queued. -/
def Obligations.ACommandIsHeldWhileBusy : Prop :=
  (∀ (s : State) (w : BitVec 64) (rest : List Input) (i : Instr),
    s.busy = true → s.fixup = false → s.inputs = .word (.command w) :: rest → decode (.step s.seq) = .ok i → step s = exec i s) ∧
  (∀ (s : State) (w : BitVec 64) (rest : List Input),
    s.busy = true → s.fixup = true → s.inputs = .word (.command w) :: rest → step s = .next s.mapirqResume) ∧
  (∀ (s : State) (w : BitVec 64) (i : Instr), s.busy = true → decode (.command w) = .ok i → exec i s = .next s)

/-- O7. R70, R401, R402. After hardware reset ls = RESET, seq = 0, the four flags are 0, and nothing runs by itself. That the history and the
PHY write log start empty is the model's choice (log 17, log 18) and is not said here. -/
def Obligations.ResetLeavesTheBlockIdle : Prop :=
  (∀ (cfg : Cfg) (n : Nat),
    (State.afterReset cfg n).ls = .reset ∧ (State.afterReset cfg n).seq = 0 ∧
    (State.afterReset cfg n).attached = false ∧ (State.afterReset cfg n).registered = false ∧
    (State.afterReset cfg n).calFail = false ∧ (State.afterReset cfg n).busy = false ∧
    step (State.afterReset cfg n) = .next (State.afterReset cfg n)) ∧
  State.reset = State.afterReset Cfg.default 0

/-- O8. R400, R401, R419. Hardware reset takes any state to ls = RESET, seq = 0, flags 0, and no register or store content survives it. Clause
2 compares two machines after the same reset number, which have the same unspecified values: the point log 3 calls unsafe. The reset
input, the count of resets and the emptied history are the model's choice (log 18). -/
def Obligations.HardwareResetCarriesNothingOver : Prop :=
  (∀ (s : State) (rest : List Input), s.inputs = .reset :: rest →
    ∃ t, step s = .next t ∧ t.ls = .reset ∧ t.seq = 0 ∧ t.attached = false ∧ t.registered = false ∧
      t.calFail = false ∧ t.busy = false ∧ t.cfg = s.cfg ∧ t.inputs = rest) ∧
  (∀ (s s' : State), s.inputs.head? = some .reset →
    s'.cfg = s.cfg → s'.epoch = s.epoch → s'.inputs = s.inputs → s'.draws = s.draws → s'.drawCount = s.drawCount →
    s'.resOks = s.resOks → s'.resOkCount = s.resOkCount → step s' = step s)

/-- O9. R37, R400, R257. Only hardware reset clears attached, registered or cal_fail. -/
def Obligations.FlagsAreSticky : Prop :=
  ∀ (s t : State), step s = .next t → s.notResetting = true →
    (s.attached = true → t.attached = true) ∧ (s.registered = true → t.registered = true) ∧
    (s.calFail = true → t.calFail = true)

/-- O10. R252, R243, R33, R37. Every step completes and keeps the control state consistent: busy iff a command is being executed, registered
iff UP. The pause inside MAPIRQ(0,0), and which inputs are the outside's own, are the model's choice (log 6, log 7). -/
def Obligations.ControlInvariantIsKept : Prop :=
  ∀ s : State, s.ControlInv → s.outsideOnly = true → ∃ t, step s = .next t ∧ t.ControlInv ∧ t.outsideOnly = true

/-- O11. R70, R401. The invariants of the other statements hold right after reset. -/
def Obligations.InvariantsHoldAtReset : Prop :=
  ∀ (cfg : Cfg) (n : Nat),
    (State.afterReset cfg n).ControlInv ∧ (State.afterReset cfg n).BringupInv ∧
    (State.afterReset cfg n).memWf = true ∧ (State.afterReset cfg n).outsideOnly = true

/-- O12. R67, R102. Every step keeps the byte store of configuration space in its canonical form (log 11). -/
def Obligations.MemoryStaysCanonical : Prop :=
  ∀ (s t : State), s.memWf = true → step s = .next t → t.memWf = true

/-- O13. R32, R251. The Link State moves only along the six transitions of R32, and never out of UP or DISABLED. -/
def Obligations.LinkStateFollowsItsTransitions : Prop :=
  ∀ (s t : State), s.ControlInv → s.outsideOnly = true → s.notResetting = true → step s = .next t →
    t.ls = s.ls ∨ LinkState.mayBecome s.ls t.ls = true

/-- O14. R244, R246, R248, R420, R280, R292, R407, R120. Every step keeps the reset line, clock, host-select and window registers as the rules
say, and in UP only MAPIRQ(0,0) opens the inbound BAR. That nobody but the block writes these registers is log 13 (R120); the pause inside
MAPIRQ(0,0) is log 6. -/
def Obligations.BringupStagesAreKept : Prop :=
  ∀ (s t : State), s.cfg.Wf → s.ControlInv → s.BringupInv → s.outsideOnly = true → step s = .next t →
    t.BringupInv ∧
    (s.ls = .up → s.ss.bar0setup = s.cfg.bar0Mask2g → s.notResetting = true → s.acceptsRootMapirq = false →
      t.ss.bar0setup = s.cfg.bar0Mask2g)

/-- O15. R202, R413. Every master-port request of every step is one of those R202 lists, and the history only grows. -/
def Obligations.RequestsStayInRange : Prop :=
  ∀ (s t : State), s.ControlInv → s.outsideOnly = true → s.notResetting = true → step s = .next t →
    ∃ es, t.hist = s.hist ++ es ∧ ∀ e ∈ es, e.inRange s.cfg = true

/-- O16. R324, R106, R310. Every CFGDATA access of a step is preceded in that step by a CFGADDR write with only CFGDATA accesses between. -/
def Obligations.AddressDataPairIsOneUnit : Prop :=
  ∀ (s t : State), s.cfg.Wf → s.ControlInv → s.outsideOnly = true → s.notResetting = true → step s = .next t →
    ∃ es, t.hist = s.hist ++ es ∧ pairedFrom s.cfg false es = true

/-- O17. R405, R222. The block never writes a PHY control word except right after it has read the busy flag clear. -/
def Obligations.NoWriteIntoABusyPhy : Prop :=
  ∀ (s t : State), s.cfg.Wf → s.ControlInv → s.outsideOnly = true → s.notResetting = true → step s = .next t →
    ∃ es, t.hist = s.hist ++ es ∧ phySafeFrom s.cfg false es = true

/-- O18. R252, R251, R253, R420. An admitted ATTACH reaches UP or DISABLED within 32 steps, whatever the environment answers. -/
def Obligations.AttachRunsToATerminalState : Prop :=
  ∀ s : State, s.ControlInv → s.seq ≠ 0 → s.inputs = [] →
    ∃ n t, n ≤ 32 ∧ Sys2Proof.core.run n s = .next t ∧ t.seq = 0 ∧ t.busy = false ∧ t.attached = true ∧
      (t.ls = .up ∨ t.ls = .disabled) ∧ (t.registered = true ↔ t.ls = .up) ∧
      t.res.status = 0 ∧ t.res.rdata = 0 ∧ t.res.aux.getLsbD 7 = t.calFail ∧
      (t.res.aux.extractLsb' 0 2 = 0 ↔ t.ls = .up) ∧ t.res.aux.extractLsb' 0 2 ≠ 3 ∧ t.res.aux.extractLsb' 2 5 = 0

/-- O19. R255, R247, R245, R417. ATTACH with an idle PHY and an unlocked PLL issues exactly the 23 requests of R255 (a) and ends DISABLED,
outcome 1. The completion marks in the PHY write log are log 17; the list of answers is log 4. -/
def Obligations.PllUnlockHistory : Prop :=
  ∀ (s : State) (v1 v2 v3 v4 v5 v6 p : Word) (rest : List Word),
    s.cfg.Wf → s.ControlInv → s.seq = 1 → s.inputs = [] → s.draws = v1 :: v2 :: v3 :: v4 :: v5 :: v6 :: p :: rest →
    (∀ v ∈ [v1, v2, v3, v4, v5, v6], v &&& s.cfg.mPhyBusy = 0) → p &&& s.cfg.mPllLock = 0 →
    ∃ t, Sys2Proof.core.run 14 s = .next t ∧
      t.hist = s.hist ++ (prologueEvents s.cfg ++ idleCalSeqEvents s.cfg v1 v2 v3 v4 v5 v6 ++ clockOnEvents s.cfg ++
        [.scRd s.cfg.offPpllcfg1 p, .rstAssert, .scMod s.cfg.offClkcfg1 s.cfg.mPcieClkEn 0]) ∧
      t.ls = .disabled ∧ t.seq = 0 ∧ t.busy = false ∧ t.rstOut = true ∧ t.sc.clkcfg1 &&& s.cfg.mPcieClkEn = 0 ∧
      t.registered = false ∧ t.calFail = s.calFail ∧ t.br = s.br ∧ t.ss = s.ss ∧ t.draws = rest ∧
      t.res = { status := 0, aux := if s.calFail then 0x81 else 0x01, rdata := 0 } ∧
      t.phyLog = s.phyLog ++ [⟨0x00, 0x80, true⟩, ⟨0x01, 0x04, true⟩, ⟨0x68, 0xB4, true⟩] ∧
      t.raised = s.raised ++ [.pllUnlock]

/-- O20. R255, R248, R250, R417. ATTACH with an idle PHY, a locked PLL and no link issues exactly the 36 requests of R255 (b) and ends
DISABLED, outcome 2. The completion marks in the PHY write log are log 17; that no one else writes the system-control bits is log 13; the
list of answers is log 4. -/
def Obligations.LinkDownHistory : Prop :=
  ∀ (s : State) (v1 v2 v3 v4 v5 v6 p l : Word) (rest : List Word),
    s.cfg.Wf → s.ControlInv → s.seq = 1 → s.inputs = [] → s.draws = v1 :: v2 :: v3 :: v4 :: v5 :: v6 :: p :: l :: rest →
    (∀ v ∈ [v1, v2, v3, v4, v5, v6], v &&& s.cfg.mPhyBusy = 0) → p &&& s.cfg.mPllLock ≠ 0 → l &&& s.cfg.mLinkUp = 0 →
    ∃ t, Sys2Proof.core.run 27 s = .next t ∧
      t.hist = s.hist ++ (prologueEvents s.cfg ++ idleCalSeqEvents s.cfg v1 v2 v3 v4 v5 v6 ++ clockOnEvents s.cfg ++
        [.scRd s.cfg.offPpllcfg1 p] ++ lockedEvents s.cfg ++
        [.ssRd s.cfg.offStatus l, .rstAssert, .scMod s.cfg.offClkcfg1 s.cfg.mPcieClkEn 0,
         .scMod s.cfg.offPplldrv s.cfg.plldrvPdClr s.cfg.plldrvPdSet, .log 2 0]) ∧
      t.ls = .disabled ∧ t.seq = 0 ∧ t.busy = false ∧ t.rstOut = true ∧ t.sc.clkcfg1 &&& s.cfg.mPcieClkEn = 0 ∧
      t.sc.pplldrv &&& s.cfg.plldrvPdSet = s.cfg.plldrvPdSet ∧
      t.registered = false ∧ t.calFail = s.calFail ∧ t.br = s.br ∧ t.ss = s.ss ∧ t.draws = rest ∧
      t.res = { status := 0, aux := if s.calFail then 0x82 else 0x02, rdata := 0 } ∧
      t.phyLog = s.phyLog ++ [⟨0x00, 0x80, true⟩, ⟨0x01, 0x04, true⟩, ⟨0x68, 0xB4, true⟩] ∧
      t.raised = s.raised ++ [.linkDown]

/-- O21. R255, R249, R280, R417. ATTACH with an idle PHY, a locked PLL and a link issues exactly the 42 requests of R255 (c) and ends UP,
outcome 0. The completion marks in the PHY write log are log 17; that the clock bit set at step 10 still stands at the end is log 13
(R120); the list of answers is log 4. -/
def Obligations.LinkUpHistory : Prop :=
  ∀ (s : State) (v1 v2 v3 v4 v5 v6 p l : Word) (rest : List Word),
    s.cfg.Wf → s.ControlInv → s.seq = 1 → s.inputs = [] → s.draws = v1 :: v2 :: v3 :: v4 :: v5 :: v6 :: p :: l :: rest →
    (∀ v ∈ [v1, v2, v3, v4, v5, v6], v &&& s.cfg.mPhyBusy = 0) → p &&& s.cfg.mPllLock ≠ 0 → l &&& s.cfg.mLinkUp ≠ 0 →
    ∃ t, Sys2Proof.core.run 32 s = .next t ∧
      t.hist = s.hist ++ (prologueEvents s.cfg ++ idleCalSeqEvents s.cfg v1 v2 v3 v4 v5 v6 ++ clockOnEvents s.cfg ++
        [.scRd s.cfg.offPpllcfg1 p] ++ lockedEvents s.cfg ++ [.ssRd s.cfg.offStatus l] ++ wincfgEvents s.cfg s.br.pcimsk) ∧
      t.ls = .up ∧ t.seq = 0 ∧ t.busy = false ∧ t.rstOut = false ∧ t.registered = true ∧ t.calFail = s.calFail ∧
      t.sc.clkcfg1 &&& s.cfg.mPcieClkEn = s.cfg.mPcieClkEn ∧ t.sc.syscfg1 &&& s.cfg.mHostsel = 0 ∧
      t.br = { s.br with membase := s.cfg.membaseSentinel, iobase := s.cfg.ioWinBase, pcimsk := s.br.pcimsk ||| s.cfg.mPcimskLegacy } ∧
      t.ss = { bar0setup := s.cfg.bar0Mask2g, imbasebar0 := s.cfg.hostMemBase, id := s.cfg.idWord, cls := s.cfg.classWord,
               subid := s.cfg.subidWord } ∧
      t.draws = rest ∧ t.res = { status := 0, aux := if s.calFail then 0x80 else 0x00, rdata := 0 } ∧
      t.phyLog = s.phyLog ++ [⟨0x00, 0x80, true⟩, ⟨0x01, 0x04, true⟩, ⟨0x68, 0xB4, true⟩] ∧ t.raised = s.raised

/-- O22. R240, R241, R242, R365, R366, R151. ATTACH (attach): already attached is refused with 0x84, a failed acquisition with 0x83, otherwise
the sequence starts at step 1. That a refused command loads the operand latches is the model's reading, log 20 (DEDUCED). The samples of
res_ok are log 5. -/
def Obligations.AttachAdmission : Prop :=
  ∀ (s : State) (wdata : Word) (bus devfn : Byte) (off : BitVec 12), s.busy = false →
    (s.attached = true → exec (.attach wdata bus devfn off) s = .next { s with
      lat := { op := 0x1, bus := bus, devfn := devfn, off := off, wdata := wdata },
      res := { status := 0x84, aux := 0, rdata := 0 }, raised := s.raised ++ [.alreadyAttached] }) ∧
    (s.attached = false → s.nextResOk = false → exec (.attach wdata bus devfn off) s = .next { s with
      lat := { op := 0x1, bus := bus, devfn := devfn, off := off, wdata := wdata },
      res := { status := 0x83, aux := 0, rdata := 0 }, raised := s.raised ++ [.resourceFail],
      resOks := s.resOks.tail, resOkCount := s.resOkCount + 1 }) ∧
    (s.attached = false → s.nextResOk = true → exec (.attach wdata bus devfn off) s = .next { s with
      lat := { op := 0x1, bus := bus, devfn := devfn, off := off, wdata := wdata },
      attached := true, seq := 1, busy := true, resOks := s.resOks.tail, resOkCount := s.resOkCount + 1 })

/-- O23. R367, R163, R151. A reserved op (ILLEGAL.0, .3, .7, .B, .C-F) issues nothing and completes with ERR_ILLEGAL_OP, whatever ls is. That
a refused command loads the operand latches is the model's reading, log 20 (DEDUCED). -/
def Obligations.IllegalOpIsRefused : Prop :=
  (∀ (s : State) (w : BitVec 64), s.busy = false →
    w.toNat % 16 = 0x0 ∨ w.toNat % 16 = 0x3 ∨ w.toNat % 16 = 0x7 ∨ 0xB ≤ w.toNat % 16 →
    ∃ i, decode (.command w) = .ok i ∧
      exec i s = .next { s with
        lat := { op := w.extractLsb' 0 4, bus := w.extractLsb' 24 8, devfn := w.extractLsb' 16 8, off := w.extractLsb' 4 12,
                 wdata := w.extractLsb' 32 32 },
        res := { status := 0x81, aux := 0, rdata := 0 }, raised := s.raised ++ [.illegalOp] }) ∧
  (∀ (s : State) (lo : BitVec 2) (wdata : Word) (bus devfn : Byte) (off : BitVec 12), s.busy = false →
    exec (.illegal0 wdata bus devfn off) s = .next { s with
      lat := { op := 0x0, bus := bus, devfn := devfn, off := off, wdata := wdata },
      res := { status := 0x81, aux := 0, rdata := 0 }, raised := s.raised ++ [.illegalOp] } ∧
    exec (.illegal3 wdata bus devfn off) s = .next { s with
      lat := { op := 0x3, bus := bus, devfn := devfn, off := off, wdata := wdata },
      res := { status := 0x81, aux := 0, rdata := 0 }, raised := s.raised ++ [.illegalOp] } ∧
    exec (.illegal7 wdata bus devfn off) s = .next { s with
      lat := { op := 0x7, bus := bus, devfn := devfn, off := off, wdata := wdata },
      res := { status := 0x81, aux := 0, rdata := 0 }, raised := s.raised ++ [.illegalOp] } ∧
    exec (.illegalB wdata bus devfn off) s = .next { s with
      lat := { op := 0xB, bus := bus, devfn := devfn, off := off, wdata := wdata },
      res := { status := 0x81, aux := 0, rdata := 0 }, raised := s.raised ++ [.illegalOp] } ∧
    exec (.illegalCF lo wdata bus devfn off) s = .next { s with
      lat := { op := BitVec.ofNat 4 (12 + lo.toNat), bus := bus, devfn := devfn, off := off, wdata := wdata },
      res := { status := 0x81, aux := 0, rdata := 0 }, raised := s.raised ++ [.illegalOp] })

/-- O24. R368, R370, R345, R151. CFGRD, CFGWR and MAPIRQ with ls not UP issue nothing and complete with ERR_NOT_UP, misaligned or not. That a
refused command loads the operand latches is the model's reading, log 20 (DEDUCED). -/
def Obligations.NotUpIsRefused : Prop :=
  ∀ (s : State) (w : BitVec 64) (i : Instr), s.busy = false → s.ls ≠ .up → decode (.command w) = .ok i →
    w.toNat % 16 ∈ [0x2, 0x4, 0x5, 0x6, 0x8, 0x9, 0xA] →
      exec i s = .next { s with
        lat := { op := w.extractLsb' 0 4, bus := w.extractLsb' 24 8, devfn := w.extractLsb' 16 8, off := w.extractLsb' 4 12,
                 wdata := w.extractLsb' 32 32 },
        res := { status := 0x82, aux := 0, rdata := 0 }, raised := s.raised ++ [.notUp] }

/-- O25. R369, R104, R370. A misaligned half-word or dword access in UP issues nothing and completes with ERR_MISALIGNED under the policy
refuse. That a refused command loads the operand latches is the model's reading, log 20 (DEDUCED). -/
def Obligations.MisalignedIsRefused : Prop :=
  ∀ (s : State) (w : Width) (wdata : Word) (bus devfn : Byte) (off : BitVec 12),
    s.busy = false → s.ls = .up → s.cfg.misalignPolicy = .refuse → off.toNat % widthBytes w ≠ 0 →
    exec (cfgrdInstr w wdata bus devfn off) s = .next { s with
      lat := { op := cfgrdOp w, bus := bus, devfn := devfn, off := off, wdata := wdata },
      res := { status := 0x85, aux := 0, rdata := 0 }, raised := s.raised ++ [.misaligned] } ∧
    exec (cfgwrInstr w wdata bus devfn off) s = .next { s with
      lat := { op := cfgwrOp w, bus := bus, devfn := devfn, off := off, wdata := wdata },
      res := { status := 0x85, aux := 0, rdata := 0 }, raised := s.raised ++ [.misaligned] }

/-- O26. R310, R312, R313, R314, R104, R67, R326. CFGRD.B, CFGRD.H and CFGRD.W in UP: two requests, the addressed lanes of the selected dword
as rdata, and what stays unchanged. That a mirrored dword answers a register and swallows a write is R326's droppable map, log 12 (DESIGN
CHOICE). -/
def Obligations.CfgrdReadsTheAddressedLanes : Prop :=
  ∀ (s : State) (w : Width) (wdata : Word) (bus devfn : Byte) (off : BitVec 12),
    s.cfg.Wf → s.busy = false → s.ls = .up → (off.toNat % widthBytes w = 0 ∨ s.cfg.misalignPolicy = .literal) →
    exec (cfgrdInstr w wdata bus devfn off) s = .next
      { s.afterDraws (if rootHdrReg s.cfg (locOf bus devfn off) = none ∧ locOf bus devfn off ∉ s.plain then 1 else 0) with
        lat := { op := cfgrdOp w, bus := bus, devfn := devfn, off := off, wdata := wdata }
        res := {
          status := 0
          aux := 0
          rdata := BitVec.ofNat 32 ((s.dwordAt (locOf bus devfn off)).toNat / 2 ^ (8 * firstLane w off) % 2 ^ (8 * widthBytes w)) }
        work := { s.work with
          tok := token s.cfg bus devfn off
          dw := s.dwordAt (locOf bus devfn off)
          sh := if w = .dword then s.work.sh else BitVec.ofNat 5 (8 * (off.toNat % 4)) }
        br := { s.br with cfgaddr := token s.cfg bus devfn off }
        ans := s.dwordAt (locOf bus devfn off)
        hist := s.hist ++ [.brWr s.cfg.offCfgaddr (token s.cfg bus devfn off),
          .brRd s.cfg.offCfgdata (s.dwordAt (locOf bus devfn off))] }

/-- O27. R310, R315, R316, R317, R105, R104, R67, R108, R326. CFGWR.B, CFGWR.H and CFGWR.W in UP: the requests, the bytes stored, and what
stays unchanged. That a mirrored dword answers a register and swallows a write is R326's droppable map, log 12 (DESIGN CHOICE). -/
def Obligations.CfgwrWritesTheAddressedLanes : Prop :=
  ∀ (s : State) (w : Width) (wdata : Word) (bus devfn : Byte) (off : BitVec 12),
    s.cfg.Wf → s.memWf = true → s.busy = false → s.ls = .up →
    (off.toNat % widthBytes w = 0 ∨ s.cfg.misalignPolicy = .literal) →
    ∃ (t : State) (new : Word), exec (cfgwrInstr w wdata bus devfn off) s = .next t ∧
      (∀ k, k < 4 → laneByte new k = writtenByte w off (s.dwordAt (locOf bus devfn off)) wdata k) ∧
      t.hist = s.hist ++ (if w = .dword then
          [.brWr s.cfg.offCfgaddr (token s.cfg bus devfn off), .brWr s.cfg.offCfgdata wdata]
        else
          [.brWr s.cfg.offCfgaddr (token s.cfg bus devfn off), .brRd s.cfg.offCfgdata (s.dwordAt (locOf bus devfn off)),
           .brWr s.cfg.offCfgdata new]) ∧
      (∀ a, t.cfgByte a =
        if s.isPlain (locOf bus devfn off) ∧ a / 4 = (locOf bus devfn off).toNat ∧ covers w off (a % 4) = true
        then laneByte wdata (a % 4 - firstLane w off) else s.cfgByte a) ∧
      t = { s.afterDraws
              (if w ≠ .dword ∧ rootHdrReg s.cfg (locOf bus devfn off) = none ∧ locOf bus devfn off ∉ s.plain then 1 else 0) with
        lat := { op := cfgwrOp w, bus := bus, devfn := devfn, off := off, wdata := wdata }
        res := { status := 0, aux := 0, rdata := 0 }
        work := t.work
        br := { s.br with cfgaddr := token s.cfg bus devfn off }
        ans := if w = .dword then s.ans else s.dwordAt (locOf bus devfn off)
        mem := t.mem
        hist := t.hist } ∧
      t.work = { s.work with
        tok := token s.cfg bus devfn off, dw := t.work.dw, sh := t.work.sh, lm := t.work.lm }

/-- O28. R320. A write followed by a read of the same plain location returns the written value masked to the width, and no other byte changes. -/
def Obligations.RoundTripAndLaneIsolation : Prop :=
  ∀ (s : State) (w : Width) (v v' : Word) (bus devfn : Byte) (off : BitVec 12),
    s.cfg.Wf → s.memWf = true → s.busy = false → s.ls = .up → s.isPlain (locOf bus devfn off) →
    off.toNat % widthBytes w = 0 →
    ∃ t u, exec (cfgwrInstr w v bus devfn off) s = .next t ∧ exec (cfgrdInstr w v' bus devfn off) t = .next u ∧
      u.res = { status := 0, aux := 0, rdata := BitVec.ofNat 32 (v.toNat % 2 ^ (8 * widthBytes w)) } ∧
      (∀ a, ¬(4 * (locOf bus devfn off).toNat + off.toNat % 4 ≤ a ∧
              a < 4 * (locOf bus devfn off).toNat + off.toNat % 4 + widthBytes w) →
        u.cfgByte a = s.cfgByte a)

/-- O29. R346, R340. MAPIRQ in UP returns the fixed interrupt for (1, 0) and 0 for every other (bus, slot). That MAPIRQ(0,0) takes a second
turn is the model's choice (log 6). -/
def Obligations.MapirqNamesTheInterrupt : Prop :=
  ∀ (s : State) (wdata : Word) (bus devfn : Byte) (off : BitVec 12),
    s.cfg.Wf → s.busy = false → s.ls = .up → s.inputs = [] →
    ∃ u t, exec (.mapirq wdata bus devfn off) s = .next u ∧
      (if bus.toNat = 0 ∧ devfn.toNat / 8 = 0 then u.busy = true ∧ step u = .next t else t = u) ∧ t.busy = false ∧
      t.res = { status := 0, aux := if bus.toNat = 1 ∧ devfn.toNat / 8 = 0 then s.cfg.irqPcie0 else 0, rdata := 0 } ∧
      (t.res.aux = s.cfg.irqPcie0 ↔ bus.toNat = 1 ∧ devfn.toNat / 8 = 0)

/-- O30. R340, R341, R342, R343, R364, R417, R292. MAPIRQ (mapirq) in UP: the 17, 14, 15 or 1 requests of its branch, the pause of
MAPIRQ(0,0), and what each form leaves unchanged. That MAPIRQ(0,0) pauses for one turn between its two writes (R292) is the model's choice
(log 6). -/
def Obligations.MapirqRequestsAndFrame : Prop :=
  (∀ (s : State) (wdata : Word) (bus devfn : Byte) (off : BitVec 12),
    s.cfg.Wf → s.busy = false → s.ls = .up → bus = 0 ∧ slotOf devfn = 0 →
    exec (.mapirq wdata bus devfn off) s = .next { s with
      lat := { op := 0x2, bus := bus, devfn := devfn, off := off, wdata := wdata }
      busy := true
      fixup := true
      ss := { s.ss with bar0setup := s.cfg.bar0Mask2g ||| s.cfg.bar0En }
      hist := s.hist ++ [.ssWr s.cfg.offBar0setup (s.cfg.bar0Mask2g ||| s.cfg.bar0En)] }) ∧
  (∀ (s : State) (rest : List Input), s.cfg.Wf → s.memWf = true → s.fixup = true → s.turnNext rest →
    ∃ t d1 d2 d3 d4 d5, step s = .next t ∧
      t.hist = s.hist ++ [.ssWr s.cfg.offImbasebar0 0, .ssRd s.cfg.offImbasebar0 0] ++ houseEvents s.cfg 0 0 0 d1 d2 d3 d4 d5 ∧
      (∀ a, BitVec.ofNat 26 (a / 4) ∉ houseLocs s.cfg 0 0 → t.cfgByte a = s.cfgByte a) ∧
      t = { s with
        inputs := rest
        fixup := false
        busy := false
        res := { status := 0, aux := 0, rdata := 0 }
        work := t.work
        br := { s.br with cfgaddr := token s.cfg 0 0 s.cfg.pciInterruptLine }
        ss := { s.ss with imbasebar0 := 0 }
        mem := t.mem
        hist := t.hist
        ans := t.ans
        draws := t.draws
        drawCount := t.drawCount }) ∧
  (∀ (s : State) (wdata : Word) (bus devfn : Byte) (off : BitVec 12),
    s.cfg.Wf → s.memWf = true → s.busy = false → s.ls = .up → ¬(bus = 0 ∧ slotOf devfn = 0) →
    ((bus = 1 ∧ slotOf devfn = 0) ∨ s.cfg.housekeepUnexpected = true →
      ∃ t d1 d2 d3 d4 d5, exec (.mapirq wdata bus devfn off) s = .next t ∧
        t.hist = s.hist ++
          (if bus = 1 ∧ slotOf devfn = 0 then [] else [.log 3 (BitVec.ofNat 32 (256 * bus.toNat + devfn.toNat / 8))]) ++
          houseEvents s.cfg bus (slotOf devfn ++ 0#3) (if bus = 1 ∧ slotOf devfn = 0 then s.cfg.irqPcie0 else 0) d1 d2 d3 d4 d5 ∧
        (∀ a, BitVec.ofNat 26 (a / 4) ∉ houseLocs s.cfg bus (slotOf devfn ++ 0#3) → t.cfgByte a = s.cfgByte a) ∧
        t = { s with
          lat := { op := 0x2, bus := bus, devfn := devfn, off := off, wdata := wdata }
          res := { status := 0, aux := if bus = 1 ∧ slotOf devfn = 0 then s.cfg.irqPcie0 else 0, rdata := 0 }
          work := t.work
          br := { s.br with cfgaddr := token s.cfg bus (slotOf devfn ++ 0#3) s.cfg.pciInterruptLine }
          mem := t.mem
          hist := t.hist
          raised := s.raised ++ (if bus = 1 ∧ slotOf devfn = 0 then [] else [.unexpectedTopology bus (slotOf devfn)])
          ans := t.ans
          draws := t.draws
          drawCount := t.drawCount }) ∧
    (¬((bus = 1 ∧ slotOf devfn = 0) ∨ s.cfg.housekeepUnexpected = true) →
      exec (.mapirq wdata bus devfn off) s = .next { s with
        lat := { op := 0x2, bus := bus, devfn := devfn, off := off, wdata := wdata }
        res := { status := 0, aux := 0, rdata := 0 }
        work := { s.work with irq := 0 }
        hist := s.hist ++ [.log 3 (BitVec.ofNat 32 (256 * bus.toNat + devfn.toNat / 8))]
        raised := s.raised ++ [.unexpectedTopology bus (slotOf devfn)] }))

/-- O31. R344, R417, R408, R326. HOUSEKEEP (housekeep) issues the five accesses of R344, fourteen requests, and changes nothing but the four
dwords it addresses. Function 0 is the only one R344 gives; that every devfn runs by the formula is log 29 (DESIGN CHOICE). The dword of a
mirrored location is log 12 (R326). -/
def Obligations.HousekeepIssuesFourteenRequests : Prop :=
  ∀ (s : State) (bus devfn irq : Byte), s.cfg.Wf → s.memWf = true →
    ∃ t s1 s2 s3 s4 d1 d2 d3 d4 d5, exec (.housekeep bus devfn irq) s = .next t ∧
      t.hist = s.hist ++ houseEvents s.cfg bus devfn irq d1 d2 d3 d4 d5 ∧
      s1 = s.cfgWrite .byte bus devfn s.cfg.pciCacheLineSize (s.cfg.clsValue.zeroExtend 32) ∧
      s2 = s1.cfgWrite .byte bus devfn s.cfg.pciLatencyTimer (s.cfg.latValue.zeroExtend 32) ∧
      s3 = s2.cfgRead .half bus devfn s.cfg.pciCommand ∧
      s4 = s3.cfgWrite .half bus devfn s.cfg.pciCommand
        (laneExtract d3 s.cfg.pciCommand .half ||| (s.cfg.cmdMaster ||| s.cfg.cmdIo ||| s.cfg.cmdMemory).zeroExtend 32) ∧
      d1 = s.dwordAt (locOf bus devfn s.cfg.pciCacheLineSize) ∧ d2 = s1.dwordAt (locOf bus devfn s.cfg.pciLatencyTimer) ∧
      d3 = s2.dwordAt (locOf bus devfn s.cfg.pciCommand) ∧ d4 = s3.dwordAt (locOf bus devfn s.cfg.pciCommand) ∧
      d5 = s4.dwordAt (locOf bus devfn s.cfg.pciInterruptLine) ∧
      (∀ a, BitVec.ofNat 26 (a / 4) ∉ houseLocs s.cfg bus devfn → t.cfgByte a = s.cfgByte a) ∧
      t = { s with
        work := t.work
        br := { s.br with cfgaddr := token s.cfg bus devfn s.cfg.pciInterruptLine }
        mem := t.mem
        hist := t.hist
        ans := t.ans
        draws := t.draws
        drawCount := t.drawCount }

/-- O32. R344, R16. On a plain function HOUSEKEEP leaves the cache-line size, latency timer, enabled command register and interrupt line, and
every other byte. Function 0 is the only one R344 gives; that every devfn runs by the formula is log 29 (DESIGN CHOICE). -/
def Obligations.HousekeepProgramsAPlainFunction : Prop :=
  ∀ (s : State) (bus devfn irq : Byte), s.cfg.Wf → s.memWf = true →
    [s.cfg.pciCacheLineSize.toNat, s.cfg.pciLatencyTimer.toNat, s.cfg.pciCommand.toNat, s.cfg.pciCommand.toNat + 1,
      s.cfg.pciInterruptLine.toNat].Nodup →
    (∀ loc ∈ houseLocs s.cfg bus devfn, s.isPlain loc) →
    ∃ t, exec (.housekeep bus devfn irq) s = .next t ∧
      ∀ a, t.cfgByte a =
        if a = cfgByteAddr bus devfn s.cfg.pciCacheLineSize then s.cfg.clsValue
        else if a = cfgByteAddr bus devfn s.cfg.pciLatencyTimer then s.cfg.latValue
        else if a = cfgByteAddr bus devfn s.cfg.pciCommand then
          s.cfgByte a ||| (s.cfg.cmdMaster ||| s.cfg.cmdIo ||| s.cfg.cmdMemory).extractLsb' 0 8
        else if a = cfgByteAddr bus devfn s.cfg.pciCommand + 1 then
          s.cfgByte a ||| (s.cfg.cmdMaster ||| s.cfg.cmdIo ||| s.cfg.cmdMemory).extractLsb' 8 8
        else if a = cfgByteAddr bus devfn s.cfg.pciInterruptLine then irq
        else s.cfgByte a

/-- O33. R341. ROOT_FIXUP (rootFixup) writes the open mask and a zero base, reads the base back as 0 into x[RB], and changes nothing else. As
an operation of its own it runs whole; inside MAPIRQ(0,0) it pauses between its two writes (log 6). -/
def Obligations.RootFixupOpensTheInboundBar : Prop :=
  ∀ s : State, s.cfg.Wf →
    exec .rootFixup s = .next { s with
      ss := { s.ss with bar0setup := s.cfg.bar0Mask2g ||| s.cfg.bar0En, imbasebar0 := 0 }
      work := { s.work with rb := 0 }
      ans := 0
      hist := s.hist ++ [.ssWr s.cfg.offBar0setup (s.cfg.bar0Mask2g ||| s.cfg.bar0En), .ssWr s.cfg.offImbasebar0 0,
        .ssRd s.cfg.offImbasebar0 0] }

/-- O34. R151, R347, R240. The ignored fields of a command word reach nothing but the operand latches: pin, function and wdata of MAPIRQ, all
of ATTACH. The rest of MAPIRQ(0,0) is a turn of its own (log 6). -/
def Obligations.IgnoredFieldsHaveNoEffect : Prop :=
  (∀ (s : State) (wdata wdata' : Word) (bus devfn devfn' : Byte) (off off' : BitVec 12), slotOf devfn = slotOf devfn' →
    ∃ t t', exec (.mapirq wdata bus devfn off) s = .next t ∧ exec (.mapirq wdata' bus devfn' off') s = .next t' ∧
      t' = { t with lat := t'.lat }) ∧
  (∀ (s : State) (wdata wdata' : Word) (bus bus' devfn devfn' : Byte) (off off' : BitVec 12),
    ∃ t t', exec (.attach wdata bus devfn off) s = .next t ∧ exec (.attach wdata' bus' devfn' off') s = .next t' ∧
      t' = { t with lat := t'.lat }) ∧
  (∀ (s : State) (w : Width) (wdata wdata' : Word) (bus devfn : Byte) (off : BitVec 12),
    ∃ t t', exec (cfgrdInstr w wdata bus devfn off) s = .next t ∧ exec (cfgrdInstr w wdata' bus devfn off) s = .next t' ∧
      t' = { t with lat := t'.lat }) ∧
  (∀ (s : State) (l : Latches), s.fixup = true → s.inputs = [] →
    ∃ t, step s = .next t ∧ step { s with lat := l } = .next { t with lat := l })

/-- O35. R311. TOKEN (token): every field of the Configuration Address Token, with the enable bit always set and no other bit. -/
def Obligations.TokenFields : Prop :=
  (∀ (s : State) (bus devfn : Byte) (off : BitVec 12), s.cfg.Wf →
    ∃ tok : Word, exec (.token bus devfn off) s = .next { s with ret := .word tok } ∧
      tok.extractLsb' 24 4 = off.extractLsb' 8 4 ∧ tok.extractLsb' 16 8 = bus ∧ tok.extractLsb' 11 5 = devfn.extractLsb' 3 5 ∧
      tok.extractLsb' 8 3 = devfn.extractLsb' 0 3 ∧ tok.extractLsb' 2 6 = off.extractLsb' 2 6 ∧
      tok &&& s.cfg.tokenEn = s.cfg.tokenEn ∧ tok &&& ~~~(0x0FFFFFFC ||| s.cfg.tokenEn) = 0) ∧
  (∀ (s : State) (bus devfn : Byte) (off : BitVec 12), s.cfg.tokenEn = 0x80000000 →
    exec (.token bus devfn off) s = .next { s with ret := .word (BitVec.ofNat 32
      (0x80000000 + off.toNat / 256 * 2 ^ 24 + bus.toNat * 2 ^ 16 + devfn.toNat * 2 ^ 8 + off.toNat % 256 / 4 * 4)) })

/-- O36. R323, R311. TOKEN reads no state, and two tokens are equal exactly when bus, devfn and off[11:2] are. The second half is R323's own
inference from R311. -/
def Obligations.TokenIsPureAndInjective : Prop :=
  ∀ (s s' : State) (b d b' d' : Byte) (o o' : BitVec 12), s.cfg.Wf → s'.cfg = s.cfg →
    ∃ k k', exec (.token b d o) s = .next { s with ret := .word k } ∧
      exec (.token b' d' o') s' = .next { s' with ret := .word k' } ∧
      (k = k' ↔ b = b' ∧ d = d' ∧ o.extractLsb' 2 10 = o'.extractLsb' 2 10)

/-- O37. R318, R319. LANE_EXTRACT (laneExtract) and LANE_MERGE (laneMerge) act on the addressed byte lanes and no others, at every offset. -/
def Obligations.LaneOperations : Prop :=
  (∀ (s : State) (dw : Word) (off : BitVec 12) (w : Width),
    exec (.laneExtract dw off w) s = .next { s with ret := .word (BitVec.ofNat 32
      (dw.toNat / 2 ^ (8 * firstLane w off) % 2 ^ (8 * widthBytes w))) }) ∧
  (∀ (s : State) (dw v : Word) (off : BitVec 12) (w : Width), w ≠ .dword →
    ∃ r : Word, exec (.laneMerge dw off w v) s = .next { s with ret := .word r } ∧
      ∀ k, k < 4 → laneByte r k = writtenByte w off dw v k)

/-- O38. R243, R244, R246, R196. SEQ.01 to SEQ.05 and SEQ.09 to SEQ.11: each row's request, the register it changes, the next step, and
nothing else. -/
def Obligations.BringupRows1To5And9To11 : Prop :=
  ∀ s : State, s.cfg.Wf →
    exec .seq01 s = .next { s with
      seq := 2, sc := { s.sc with gpiomode := s.sc.gpiomode &&& ~~~s.cfg.mGpiomuxRsv },
      hist := s.hist ++ [.scMod s.cfg.offGpiomode s.cfg.mGpiomuxRsv 0] } ∧
    exec .seq02 s = .next { s with
      seq := 3, sc := { s.sc with syscfg1 := s.sc.syscfg1 &&& ~~~s.cfg.mHostsel },
      hist := s.hist ++ [.scMod s.cfg.offSyscfg1 s.cfg.mHostsel 0] } ∧
    exec .seq03 s = .next { s with seq := 4, rstOut := true, hist := s.hist ++ [.rstAssert] } ∧
    exec .seq04 s = .next { s with
      seq := 5, sc := { s.sc with clkcfg1 := s.sc.clkcfg1 &&& ~~~s.cfg.mPcieClkEn },
      hist := s.hist ++ [.scMod s.cfg.offClkcfg1 s.cfg.mPcieClkEn 0] } ∧
    exec .seq05 s = .next { s with
      seq := 6, ls := .calibrating, sc := { s.sc with pplldrv := (s.sc.pplldrv &&& ~~~s.cfg.plldrvAClr) ||| s.cfg.plldrvASet },
      hist := s.hist ++ [.scMod s.cfg.offPplldrv s.cfg.plldrvAClr s.cfg.plldrvASet] } ∧
    exec .seq09 s = .next { s with seq := 10, rstOut := false, hist := s.hist ++ [.rstDeassert] } ∧
    exec .seq10 s = .next { s with
      seq := 11, sc := { s.sc with clkcfg1 := s.sc.clkcfg1 ||| s.cfg.mPcieClkEn },
      hist := s.hist ++ [.scMod s.cfg.offClkcfg1 0 s.cfg.mPcieClkEn] } ∧
    exec .seq11 s = .next { s with seq := 12, ls := .pllWait, hist := s.hist ++ [.delay s.cfg.tClkon] }

/-- O39. R247, R248, R249, R250, R58, R51, R362, R363. SEQ.12 samples PPLL_CFG1 once and SEQ.25 STATUS once: each goes to its disable path
with its condition, or on. That the row which samples records the condition is log 23; the answers of draw(32) are log 4. -/
def Obligations.SampleRows12And25 : Prop :=
  ∀ s : State, s.cfg.Wf →
    (s.drawAt 0 &&& s.cfg.mPllLock = 0 → exec .seq12 s = .next { s.afterDraws 1 with
      seq := 13, work := { s.work with v := s.drawAt 0 }, ans := s.drawAt 0,
      hist := s.hist ++ [.scRd s.cfg.offPpllcfg1 (s.drawAt 0)], raised := s.raised ++ [.pllUnlock] }) ∧
    (s.drawAt 0 &&& s.cfg.mPllLock ≠ 0 → exec .seq12 s = .next { s.afterDraws 1 with
      seq := 15, work := { s.work with v := s.drawAt 0 }, ans := s.drawAt 0,
      hist := s.hist ++ [.scRd s.cfg.offPpllcfg1 (s.drawAt 0)] }) ∧
    (s.drawAt 0 &&& s.cfg.mLinkUp = 0 → exec .seq25 s = .next { s.afterDraws 1 with
      seq := 26, work := { s.work with v := s.drawAt 0 }, ans := s.drawAt 0,
      hist := s.hist ++ [.ssRd s.cfg.offStatus (s.drawAt 0)], raised := s.raised ++ [.linkDown] }) ∧
    (s.drawAt 0 &&& s.cfg.mLinkUp ≠ 0 → exec .seq25 s = .next { s.afterDraws 1 with
      seq := 30, work := { s.work with v := s.drawAt 0 }, ans := s.drawAt 0,
      hist := s.hist ++ [.ssRd s.cfg.offStatus (s.drawAt 0)] })

/-- O40. R243, R248, R57, R59. SEQ.15 to SEQ.24 (PLL_WAIT to LINK_POLL): each row's request, the register it changes, the next step, and
nothing else. -/
def Obligations.BringupRows15To24 : Prop :=
  ∀ s : State, s.cfg.Wf →
    exec .seq15 s = .next { s with
      seq := 16, sc := { s.sc with pplldrv := (s.sc.pplldrv &&& ~~~s.cfg.plldrvBClr) ||| s.cfg.plldrvBSet },
      hist := s.hist ++ [.scMod s.cfg.offPplldrv s.cfg.plldrvBClr s.cfg.plldrvBSet] } ∧
    exec .seq16 s = .next { s with seq := 17, hist := s.hist ++ [.delay s.cfg.tPlldrv] } ∧
    exec .seq17 s = .next { s with seq := 18, rstOut := true, hist := s.hist ++ [.rstAssert] } ∧
    exec .seq18 s = .next { s with
      seq := 19, sc := { s.sc with syscfg1 := (s.sc.syscfg1 &&& ~~~s.cfg.slotcfgClr) ||| s.cfg.slotcfgSet },
      hist := s.hist ++ [.scMod s.cfg.offSyscfg1 s.cfg.slotcfgClr s.cfg.slotcfgSet] } ∧
    exec .seq19 s = .next { s with
      seq := 20, sc := { s.sc with clkgen0 := (s.sc.clkgen0 &&& ~~~s.cfg.clkgen0Clr) ||| s.cfg.clkgen0Set },
      hist := s.hist ++ [.scMod s.cfg.offClkgen0 s.cfg.clkgen0Clr s.cfg.clkgen0Set] } ∧
    exec .seq20 s = .next { s with
      seq := 21, sc := { s.sc with clkgen1 := (s.sc.clkgen1 &&& ~~~s.cfg.clkgen1Clr) ||| s.cfg.clkgen1Set },
      hist := s.hist ++ [.scMod s.cfg.offClkgen1 s.cfg.clkgen1Clr s.cfg.clkgen1Set] } ∧
    exec .seq21 s = .next { s with seq := 22, hist := s.hist ++ [.delay s.cfg.tClkgen] } ∧
    exec .seq22 s = .next { s with seq := 23, rstOut := false, hist := s.hist ++ [.rstDeassert] } ∧
    exec .seq23 s = .next { s with
      seq := 24, sc := { s.sc with syscfg1 := s.sc.syscfg1 &&& ~~~s.cfg.mHostsel },
      hist := s.hist ++ [.scMod s.cfg.offSyscfg1 s.cfg.mHostsel 0] } ∧
    exec .seq24 s = .next { s with seq := 25, ls := .linkPoll, hist := s.hist ++ [.delay s.cfg.tLink] }

/-- O41. R243, R247, R250, R253. SEQ.13, SEQ.14 (PLL unlock) and SEQ.26 to SEQ.29 (no card): the power-down requests and the halt in DISABLED,
status OK, outcome 1 or 2. The variable outcome as a field of the working registers is log 31. -/
def Obligations.DisableRows13And14And26To29 : Prop :=
  ∀ s : State, s.cfg.Wf →
    exec .seq13 s = .next { s with seq := 14, rstOut := true, hist := s.hist ++ [.rstAssert] } ∧
    exec .seq14 s = .next { s with
      seq := 0, ls := .disabled, busy := false, work := { s.work with outcome := 1 },
      res := { status := 0, aux := if s.calFail then 0x81 else 0x01, rdata := 0 },
      sc := { s.sc with clkcfg1 := s.sc.clkcfg1 &&& ~~~s.cfg.mPcieClkEn },
      hist := s.hist ++ [.scMod s.cfg.offClkcfg1 s.cfg.mPcieClkEn 0] } ∧
    exec .seq26 s = .next { s with seq := 27, rstOut := true, hist := s.hist ++ [.rstAssert] } ∧
    exec .seq27 s = .next { s with
      seq := 28, sc := { s.sc with clkcfg1 := s.sc.clkcfg1 &&& ~~~s.cfg.mPcieClkEn },
      hist := s.hist ++ [.scMod s.cfg.offClkcfg1 s.cfg.mPcieClkEn 0] } ∧
    exec .seq28 s = .next { s with
      seq := 29, sc := { s.sc with pplldrv := (s.sc.pplldrv &&& ~~~s.cfg.plldrvPdClr) ||| s.cfg.plldrvPdSet },
      hist := s.hist ++ [.scMod s.cfg.offPplldrv s.cfg.plldrvPdClr s.cfg.plldrvPdSet] } ∧
    exec .seq29 s = .next { s with
      seq := 0, ls := .disabled, busy := false, work := { s.work with outcome := 2 },
      res := { status := 0, aux := if s.calFail then 0x82 else 0x02, rdata := 0 }, hist := s.hist ++ [.log 2 0] }

/-- O42. R243, R281, R282, R283, R284, R285, R286. SEQ.30 to SEQ.37: each window, identification and mask register is written with its
constant, and nothing else changes. -/
def Obligations.WindowRows30To37 : Prop :=
  ∀ s : State, s.cfg.Wf →
    exec .seq30 s = .next { s with
      seq := 31, br := { s.br with membase := s.cfg.membaseSentinel }, hist := s.hist ++ [.brWr s.cfg.offMembase s.cfg.membaseSentinel] } ∧
    exec .seq31 s = .next { s with
      seq := 32, br := { s.br with iobase := s.cfg.ioWinBase }, hist := s.hist ++ [.brWr s.cfg.offIobase s.cfg.ioWinBase] } ∧
    exec .seq32 s = .next { s with
      seq := 33, ss := { s.ss with bar0setup := s.cfg.bar0Mask2g }, hist := s.hist ++ [.ssWr s.cfg.offBar0setup s.cfg.bar0Mask2g] } ∧
    exec .seq33 s = .next { s with
      seq := 34, ss := { s.ss with imbasebar0 := s.cfg.hostMemBase }, hist := s.hist ++ [.ssWr s.cfg.offImbasebar0 s.cfg.hostMemBase] } ∧
    exec .seq34 s = .next { s with
      seq := 35, ss := { s.ss with id := s.cfg.idWord }, hist := s.hist ++ [.ssWr s.cfg.offId s.cfg.idWord] } ∧
    exec .seq35 s = .next { s with
      seq := 36, ss := { s.ss with cls := s.cfg.classWord }, hist := s.hist ++ [.ssWr s.cfg.offClass s.cfg.classWord] } ∧
    exec .seq36 s = .next { s with
      seq := 37, ss := { s.ss with subid := s.cfg.subidWord }, hist := s.hist ++ [.ssWr s.cfg.offSubid s.cfg.subidWord] } ∧
    exec .seq37 s = .next { s with
      seq := 38, br := { s.br with pcimsk := s.br.pcimsk ||| s.cfg.mPcimskLegacy }, ans := s.br.pcimsk,
      hist := s.hist ++ [.brRd s.cfg.offPcimsk s.br.pcimsk, .brWr s.cfg.offPcimsk (s.br.pcimsk ||| s.cfg.mPcimskLegacy)] }

/-- O43. R249, R287, R253, R33. SEQ.38 registers and halts in UP with status OK and outcome 0; SEQ.IDLE does nothing. The variable outcome as
a field of the working registers is log 31. -/
def Obligations.RegisterRowAndIdle : Prop :=
  ∀ s : State,
    exec .seq38 s = .next { s with
      seq := 0, ls := .up, registered := true, busy := false, work := { s.work with outcome := 0 },
      res := { status := 0, aux := if s.calFail then 0x80 else 0x00, rdata := 0 }, hist := s.hist ++ [.register] } ∧
    exec .seqIdle s = .next s

/-- O44. R280, R293, R255. WINCFG (wincfg): its ten requests in order, the eight registers it leaves written, registered set, and nothing
else. That WINCFG as an operation leaves ls, seq and RES to the rows is the model's reading, log 10 (DEDUCED). -/
def Obligations.WincfgWritesTheWindows : Prop :=
  ∀ s : State, s.cfg.Wf →
    exec .wincfg s = .next { s with
      br := { s.br with
        membase := s.cfg.membaseSentinel, iobase := s.cfg.ioWinBase, pcimsk := s.br.pcimsk ||| s.cfg.mPcimskLegacy }
      ss := { bar0setup := s.cfg.bar0Mask2g, imbasebar0 := s.cfg.hostMemBase, id := s.cfg.idWord, cls := s.cfg.classWord,
              subid := s.cfg.subidWord }
      registered := true
      ans := s.br.pcimsk
      hist := s.hist ++ wincfgEvents s.cfg s.br.pcimsk }

/-- O45. R221. WAIT_PHY_IDLE (waitPhyIdle): the exact polls, delays and result for any answers, bounded by WAITRETRY_MAX + 1. -/
def Obligations.WaitPhyIdlePollsAtMostTheBound : Prop :=
  ∀ s : State, ∃ (vs : List Word) (v : Word) (idle : Bool),
    waitAnswers s.cfg vs v idle ∧ s.answersFrom 0 vs v ∧
    exec .waitPhyIdle s = .next { s.afterDraws (vs.length + 1) with
      work := { s.work with v := v, polls := vs.length + 1 }
      ans := v
      hist := s.hist ++ waitTrail s.cfg vs v
      ret := if idle then .ok else .timeout }

/-- O46. R222, R224, R226, R361. CALIBRATE (calibrate): its three outcomes with their exact histories; an exhausted wait sets cal_fail, logs
once, and nothing else. The mark of a completed request in the PHY write log is log 17 (R226 says 'may'). -/
def Obligations.CalibrateWaitsWritesWaits : Prop :=
  ∀ (s : State) (a d : Byte), s.cfg.Wf →
    ∃ t vs v, exec (.calibrate a d) s = .next t ∧ s.answersFrom 0 vs v ∧
      ((waitAnswers s.cfg vs v false ∧
        t = { s.afterDraws (vs.length + 1) with
          work := { s.work with cala := a, cald := d, v := v, polls := vs.length + 1 }
          ans := v
          hist := s.hist ++ waitTrail s.cfg vs v ++ [.log 1 (BitVec.ofNat 32 (256 * a.toNat))]
          calFail := true
          raised := s.raised ++ [.calTimeout a 0]
          ret := .fail }) ∨
      (waitAnswers s.cfg vs v true ∧ ∃ ws w idle, waitAnswers s.cfg ws w idle ∧ s.answersFrom (vs.length + 1) ws w ∧
        t = { s.afterDraws (vs.length + 1 + (ws.length + 1)) with
          work := { s.work with cala := a, cald := d, v := w, polls := ws.length + 1 }
          ans := w
          phyLog := s.phyLog ++ [⟨a, d, idle⟩]
          hist := s.hist ++ waitTrail s.cfg vs v ++ [.ssWr s.cfg.offPhycfg (phyControl s.cfg a d), .delay s.cfg.tPhywr] ++
            waitTrail s.cfg ws w ++ (if idle then [] else [.log 1 (BitVec.ofNat 32 (256 * a.toNat + 1))])
          calFail := if idle then s.calFail else true
          raised := if idle then s.raised else s.raised ++ [.calTimeout a 1]
          ret := if idle then .ok else .fail }))

/-- O47. R225, R220, R224, R417. The requests of one CALIBRATE are bounded: its polls, its delays, at most one write, and one LOG exactly when
it fails. -/
def Obligations.CalibrateIsBounded : Prop :=
  (∀ (s t : State) (a d : Byte), s.cfg.Wf → exec (.calibrate a d) s = .next t →
    ∃ es, t.hist = s.hist ++ es ∧
      ((2 ≤ countPolls s.cfg es ∧ countPolls s.cfg es ≤ 2 * (s.cfg.waitretryMax + 1) ∧
          countEvents (Event.isPhyWrite s.cfg) es = 1) ∨
        (countPolls s.cfg es = s.cfg.waitretryMax + 1 ∧ countEvents (Event.isPhyWrite s.cfg) es = 0 ∧ t.ret = .fail)) ∧
      (t.ret = .ok ∨ t.ret = .fail) ∧ countEvents Event.isLog es = (if t.ret = .fail then 1 else 0) ∧
      (if s.cfg.tBusy = s.cfg.tPhywr then countDelays s.cfg.tBusy es ≤ 2 * s.cfg.waitretryMax + 1
        else countDelays s.cfg.tBusy es ≤ 2 * s.cfg.waitretryMax ∧ countDelays s.cfg.tPhywr es ≤ 1) ∧
      es.length ≤ 4 * s.cfg.waitretryMax + 5) ∧
  (∀ (s : State) (a d : Byte), s.cfg.Wf → (∀ j, j ≤ s.cfg.waitretryMax → s.drawAt j &&& s.cfg.mPhyBusy ≠ 0) →
    ∃ t es, exec (.calibrate a d) s = .next t ∧ t.hist = s.hist ++ es ∧ t.ret = .fail ∧ t.calFail = true ∧
      countPolls s.cfg es = s.cfg.waitretryMax + 1 ∧ countDelays s.cfg.tBusy es = s.cfg.waitretryMax ∧
      countEvents Event.isLog es = 1 ∧ countEvents (Event.isPhyWrite s.cfg) es = 0 ∧ es.length = 2 * s.cfg.waitretryMax + 2)

/-- O48. R223, R224, R243, R245. CAL_SEQ (calSeq) and SEQ.06 to SEQ.08 are the three fixed CALIBRATE commands in order, each result ignored.
The completion marks in the PHY write log are log 17. -/
def Obligations.CalSeqIsThreeCalibrations : Prop :=
  (∀ s : State,
    (∃ t, exec (.calibrate 0x00 0x80) s = .next t ∧ exec .seq06 s = .next { t with seq := 7 }) ∧
    (∃ t, exec (.calibrate 0x01 0x04) s = .next t ∧ exec .seq07 s = .next { t with seq := 8 }) ∧
    (∃ t, exec (.calibrate 0x68 0xB4) s = .next t ∧ exec .seq08 s = .next { t with seq := 9 })) ∧
  (∀ s : State, ∃ s1 s2 t, exec (.calibrate 0x00 0x80) s = .next s1 ∧ exec (.calibrate 0x01 0x04) s1 = .next s2 ∧
    exec (.calibrate 0x68 0xB4) s2 = .next t ∧ exec .calSeq s = .next t) ∧
  (∀ (s : State) (v1 v2 v3 v4 v5 v6 : Word) (rest : List Word), s.cfg.Wf →
    s.draws = v1 :: v2 :: v3 :: v4 :: v5 :: v6 :: rest → (∀ v ∈ [v1, v2, v3, v4, v5, v6], v &&& s.cfg.mPhyBusy = 0) →
    ∃ t, exec .calSeq s = .next t ∧ t.hist = s.hist ++ idleCalSeqEvents s.cfg v1 v2 v3 v4 v5 v6 ∧
      t.phyLog = s.phyLog ++ [⟨0x00, 0x80, true⟩, ⟨0x01, 0x04, true⟩, ⟨0x68, 0xB4, true⟩] ∧ t.calFail = s.calFail ∧ t.ret = .ok)

/-- O49. R190, R42, R67, R110, R20, R326. BR_RD32 (brRd32): a stored bridge register answers its value, CFGDATA the dword that CFGADDR
selects, and nothing else changes. That a mirrored dword answers a register and swallows a write is R326's droppable map, log 12 (DESIGN
CHOICE). A read of an offset outside R202 as a draw is log 15. -/
def Obligations.BridgeReads : Prop :=
  ∀ s : State, s.cfg.Wf →
    exec (.brRd32 s.cfg.offPcimsk) s = .next { s with ans := s.br.pcimsk, hist := s.hist ++ [.brRd s.cfg.offPcimsk s.br.pcimsk] } ∧
    exec (.brRd32 s.cfg.offCfgaddr) s = .next { s with ans := s.br.cfgaddr, hist := s.hist ++ [.brRd s.cfg.offCfgaddr s.br.cfgaddr] } ∧
    exec (.brRd32 s.cfg.offMembase) s = .next { s with ans := s.br.membase, hist := s.hist ++ [.brRd s.cfg.offMembase s.br.membase] } ∧
    exec (.brRd32 s.cfg.offIobase) s = .next { s with ans := s.br.iobase, hist := s.hist ++ [.brRd s.cfg.offIobase s.br.iobase] } ∧
    (∀ (bus devfn : Byte) (off : BitVec 12), s.br.cfgaddr = token s.cfg bus devfn off →
      exec (.brRd32 s.cfg.offCfgdata) s = .next
        { s.afterDraws (if rootHdrReg s.cfg (locOf bus devfn off) = none ∧ locOf bus devfn off ∉ s.plain then 1 else 0) with
          ans := s.dwordAt (locOf bus devfn off)
          hist := s.hist ++ [.brRd s.cfg.offCfgdata (s.dwordAt (locOf bus devfn off))] }) ∧
    (∀ o : Half, o ∉ s.cfg.brOffsets → exec (.brRd32 o) s = .next { s.afterDraws 1 with
      ans := s.drawAt 0, hist := s.hist ++ [.brRd o (s.drawAt 0)] })

/-- O50. R191, R41, R42, R67, R202, R326. BR_WR32 (brWr32): the named register takes the value, CFGDATA writes the selected plain dword, and
nothing else changes. That a mirrored dword answers a register and swallows a write is R326's droppable map, log 12 (DESIGN CHOICE). The
refusals are log 15 (an offset outside R202) and log 16 (CFGDATA with no well-formed token in CFGADDR). -/
def Obligations.BridgeWrites : Prop :=
  ∀ (s : State) (v : Word), s.cfg.Wf →
    exec (.brWr32 s.cfg.offPcimsk v) s = .next { s with br := { s.br with pcimsk := v }, hist := s.hist ++ [.brWr s.cfg.offPcimsk v] } ∧
    exec (.brWr32 s.cfg.offCfgaddr v) s = .next { s with br := { s.br with cfgaddr := v }, hist := s.hist ++ [.brWr s.cfg.offCfgaddr v] } ∧
    exec (.brWr32 s.cfg.offMembase v) s = .next { s with br := { s.br with membase := v }, hist := s.hist ++ [.brWr s.cfg.offMembase v] } ∧
    exec (.brWr32 s.cfg.offIobase v) s = .next { s with br := { s.br with iobase := v }, hist := s.hist ++ [.brWr s.cfg.offIobase v] } ∧
    (∀ (bus devfn : Byte) (off : BitVec 12), s.br.cfgaddr = token s.cfg bus devfn off → s.memWf = true →
      ∃ t, exec (.brWr32 s.cfg.offCfgdata v) s = .next t ∧
        t = { s with mem := t.mem, hist := s.hist ++ [.brWr s.cfg.offCfgdata v] } ∧
        ∀ a, t.cfgByte a =
          if s.isPlain (locOf bus devfn off) ∧ a / 4 = (locOf bus devfn off).toNat then laneByte v (a % 4) else s.cfgByte a) ∧
    (∀ o : Half, o ∉ s.cfg.brOffsets → exec (.brWr32 o v) s = .refused (.unlistedRegister o)) ∧
    (s.br.cfgaddr &&& s.cfg.tokenEn = 0 ∨ s.br.cfgaddr &&& ~~~(0x0FFFFFFC ||| s.cfg.tokenEn) ≠ 0 →
      exec (.brWr32 s.cfg.offCfgdata v) s = .refused .cfgdataUnselected)

/-- O51. R192, R286. BR_MOD32 (brMod32) reads, clears, sets (set wins) and writes back: two requests, one register changed. The refusal of an
offset outside R202 is log 15. -/
def Obligations.BridgeModify : Prop :=
  ∀ (s : State) (clr set : Word), s.cfg.Wf →
    exec (.brMod32 s.cfg.offPcimsk clr set) s = .next { s with
      br := { s.br with pcimsk := (s.br.pcimsk &&& ~~~clr) ||| set }, ans := s.br.pcimsk,
      hist := s.hist ++ [.brRd s.cfg.offPcimsk s.br.pcimsk, .brWr s.cfg.offPcimsk ((s.br.pcimsk &&& ~~~clr) ||| set)] } ∧
    exec (.brMod32 s.cfg.offMembase clr set) s = .next { s with
      br := { s.br with membase := (s.br.membase &&& ~~~clr) ||| set }, ans := s.br.membase,
      hist := s.hist ++ [.brRd s.cfg.offMembase s.br.membase, .brWr s.cfg.offMembase ((s.br.membase &&& ~~~clr) ||| set)] } ∧
    exec (.brMod32 s.cfg.offIobase clr set) s = .next { s with
      br := { s.br with iobase := (s.br.iobase &&& ~~~clr) ||| set }, ans := s.br.iobase,
      hist := s.hist ++ [.brRd s.cfg.offIobase s.br.iobase, .brWr s.cfg.offIobase ((s.br.iobase &&& ~~~clr) ||| set)] } ∧
    exec (.brMod32 s.cfg.offCfgaddr clr set) s = .next { s with
      br := { s.br with cfgaddr := (s.br.cfgaddr &&& ~~~clr) ||| set }, ans := s.br.cfgaddr,
      hist := s.hist ++ [.brRd s.cfg.offCfgaddr s.br.cfgaddr, .brWr s.cfg.offCfgaddr ((s.br.cfgaddr &&& ~~~clr) ||| set)] } ∧
    (∀ (bus devfn : Byte) (off : BitVec 12), s.br.cfgaddr = token s.cfg bus devfn off →
      ∃ t, exec (.brRd32 s.cfg.offCfgdata) s = .next t ∧
        exec (.brMod32 s.cfg.offCfgdata clr set) s = exec (.brWr32 s.cfg.offCfgdata ((t.ans &&& ~~~clr) ||| set)) t) ∧
    (∀ o : Half, o ∉ s.cfg.brOffsets → exec (.brMod32 o clr set) s = .refused (.unlistedRegister o))

/-- O52. R193, R195, R51, R52, R58, R47, R110, R20. SS_RD32 (ssRd32), SC_RD32 (scRd32): STATUS, PHYCFG and PPLL_CFG1 answer a fresh draw, a
stored register its value; nothing else changes. A read of an offset outside R202 as a draw is log 15. -/
def Obligations.SubsystemAndSystemControlReads : Prop :=
  ∀ s : State, s.cfg.Wf →
    exec (.ssRd32 s.cfg.offImbasebar0) s = .next { s with ans := s.ss.imbasebar0, hist := s.hist ++ [.ssRd s.cfg.offImbasebar0 s.ss.imbasebar0] } ∧
    exec (.ssRd32 s.cfg.offBar0setup) s = .next { s with ans := s.ss.bar0setup, hist := s.hist ++ [.ssRd s.cfg.offBar0setup s.ss.bar0setup] } ∧
    exec (.ssRd32 s.cfg.offId) s = .next { s with ans := s.ss.id, hist := s.hist ++ [.ssRd s.cfg.offId s.ss.id] } ∧
    exec (.ssRd32 s.cfg.offClass) s = .next { s with ans := s.ss.cls, hist := s.hist ++ [.ssRd s.cfg.offClass s.ss.cls] } ∧
    exec (.ssRd32 s.cfg.offSubid) s = .next { s with ans := s.ss.subid, hist := s.hist ++ [.ssRd s.cfg.offSubid s.ss.subid] } ∧
    (∀ o : Half, o = s.cfg.offPhycfg ∨ o = s.cfg.offStatus ∨ o ∉ s.cfg.ssOffsets → exec (.ssRd32 o) s = .next { s.afterDraws 1 with
      ans := s.drawAt 0, hist := s.hist ++ [.ssRd o (s.drawAt 0)] }) ∧
    exec (.scRd32 s.cfg.offGpiomode) s = .next { s with ans := s.sc.gpiomode, hist := s.hist ++ [.scRd s.cfg.offGpiomode s.sc.gpiomode] } ∧
    exec (.scRd32 s.cfg.offSyscfg1) s = .next { s with ans := s.sc.syscfg1, hist := s.hist ++ [.scRd s.cfg.offSyscfg1 s.sc.syscfg1] } ∧
    exec (.scRd32 s.cfg.offClkcfg1) s = .next { s with ans := s.sc.clkcfg1, hist := s.hist ++ [.scRd s.cfg.offClkcfg1 s.sc.clkcfg1] } ∧
    exec (.scRd32 s.cfg.offClkgen0) s = .next { s with ans := s.sc.clkgen0, hist := s.hist ++ [.scRd s.cfg.offClkgen0 s.sc.clkgen0] } ∧
    exec (.scRd32 s.cfg.offClkgen1) s = .next { s with ans := s.sc.clkgen1, hist := s.hist ++ [.scRd s.cfg.offClkgen1 s.sc.clkgen1] } ∧
    exec (.scRd32 s.cfg.offPplldrv) s = .next { s with ans := s.sc.pplldrv, hist := s.hist ++ [.scRd s.cfg.offPplldrv s.sc.pplldrv] } ∧
    (∀ o : Half, o = s.cfg.offPpllcfg1 ∨ o ∉ s.cfg.scOffsets → exec (.scRd32 o) s = .next { s.afterDraws 1 with
      ans := s.drawAt 0, hist := s.hist ++ [.scRd o (s.drawAt 0)] })

/-- O53. R194, R52, R66, R158, R202. SS_WR32 (ssWr32): the named register takes the value, a word for PHYCFG starts at most one PHY request,
and nothing else changes. The refusal of STATUS and of an offset outside R202 is log 15; that a word without the write-mode flag starts at
most one PHY request, which one being a free value, is log 17. -/
def Obligations.SubsystemWrites : Prop :=
  ∀ (s : State) (v : Word), s.cfg.Wf →
    exec (.ssWr32 s.cfg.offBar0setup v) s = .next { s with ss := { s.ss with bar0setup := v }, hist := s.hist ++ [.ssWr s.cfg.offBar0setup v] } ∧
    exec (.ssWr32 s.cfg.offImbasebar0 v) s = .next { s with ss := { s.ss with imbasebar0 := v }, hist := s.hist ++ [.ssWr s.cfg.offImbasebar0 v] } ∧
    exec (.ssWr32 s.cfg.offId v) s = .next { s with ss := { s.ss with id := v }, hist := s.hist ++ [.ssWr s.cfg.offId v] } ∧
    exec (.ssWr32 s.cfg.offClass v) s = .next { s with ss := { s.ss with cls := v }, hist := s.hist ++ [.ssWr s.cfg.offClass v] } ∧
    exec (.ssWr32 s.cfg.offSubid v) s = .next { s with ss := { s.ss with subid := v }, hist := s.hist ++ [.ssWr s.cfg.offSubid v] } ∧
    (∀ a d : Byte, exec (.ssWr32 s.cfg.offPhycfg (phyControl s.cfg a d)) s = .next { s with
      phyLog := s.phyLog ++ [⟨a, d, false⟩], hist := s.hist ++ [.ssWr s.cfg.offPhycfg (phyControl s.cfg a d)] }) ∧
    (∀ o : Half, o = s.cfg.offStatus ∨ o ∉ s.cfg.ssOffsets → exec (.ssWr32 o v) s = .refused (.unlistedRegister o)) ∧
    (∃ l : List PhyReq, l.length ≤ 1 ∧ (∀ r ∈ l, r.done = false) ∧
      exec (.ssWr32 s.cfg.offPhycfg v) s = .next { s with phyLog := s.phyLog ++ l, hist := s.hist ++ [.ssWr s.cfg.offPhycfg v] })

/-- O54. R196, R53, R413, R202. SC_MOD32 (scMod32): the named register becomes (old & ~clr) | set, set wins, and nothing else changes. The
refusal of PPLL_CFG1 and of an offset outside R202 is log 15. -/
def Obligations.SystemControlModifies : Prop :=
  ∀ (s : State) (clr set : Word), s.cfg.Wf →
    exec (.scMod32 s.cfg.offGpiomode clr set) s = .next { s with
      sc := { s.sc with gpiomode := (s.sc.gpiomode &&& ~~~clr) ||| set }, hist := s.hist ++ [.scMod s.cfg.offGpiomode clr set] } ∧
    exec (.scMod32 s.cfg.offSyscfg1 clr set) s = .next { s with
      sc := { s.sc with syscfg1 := (s.sc.syscfg1 &&& ~~~clr) ||| set }, hist := s.hist ++ [.scMod s.cfg.offSyscfg1 clr set] } ∧
    exec (.scMod32 s.cfg.offClkcfg1 clr set) s = .next { s with
      sc := { s.sc with clkcfg1 := (s.sc.clkcfg1 &&& ~~~clr) ||| set }, hist := s.hist ++ [.scMod s.cfg.offClkcfg1 clr set] } ∧
    exec (.scMod32 s.cfg.offClkgen0 clr set) s = .next { s with
      sc := { s.sc with clkgen0 := (s.sc.clkgen0 &&& ~~~clr) ||| set }, hist := s.hist ++ [.scMod s.cfg.offClkgen0 clr set] } ∧
    exec (.scMod32 s.cfg.offClkgen1 clr set) s = .next { s with
      sc := { s.sc with clkgen1 := (s.sc.clkgen1 &&& ~~~clr) ||| set }, hist := s.hist ++ [.scMod s.cfg.offClkgen1 clr set] } ∧
    exec (.scMod32 s.cfg.offPplldrv clr set) s = .next { s with
      sc := { s.sc with pplldrv := (s.sc.pplldrv &&& ~~~clr) ||| set }, hist := s.hist ++ [.scMod s.cfg.offPplldrv clr set] } ∧
    (∀ o : Half, o = s.cfg.offPpllcfg1 ∨ o ∉ s.cfg.scOffsets → exec (.scMod32 o clr set) s = .refused (.unlistedRegister o))

/-- O55. R197, R198, R199, R200, R201. RST_ASSERT, RST_DEASSERT, DELAY, LOG and REGISTER: one event each, rst_out 1, rst_out 0, nothing,
nothing, registered 1. That LOG runs with any code and DELAY with any count, where R202 gives the codes 1 to 3 and six counts, is log 29
(DESIGN CHOICE). -/
def Obligations.LineDelayLogRegister : Prop :=
  ∀ (s : State) (n arg : Word) (code : Half),
    exec .rstAssert s = .next { s with rstOut := true, hist := s.hist ++ [.rstAssert] } ∧
    exec .rstDeassert s = .next { s with rstOut := false, hist := s.hist ++ [.rstDeassert] } ∧
    exec (.delay n) s = .next { s with hist := s.hist ++ [.delay n] } ∧
    exec (.log code arg) s = .next { s with hist := s.hist ++ [.log code arg] } ∧
    exec .register s = .next { s with registered := true, hist := s.hist ++ [.register] }

/-- O56. R288, R292, R161. INB_XLATE (inbXlate): the comparator's answer from BAR0SETUP and IMBASEBAR0, and what it is at the values the block
writes. That INB_SIZE is a natural number, 2^32 included, is log 32 (DESIGN CHOICE). -/
def Obligations.InboundWindow : Prop :=
  (∀ (s : State) (a : Word), ∃ (hit : Bool) (addr : Word),
    exec (.inbXlate a) s = .next { s with xHit := hit, xAddr := addr } ∧ (hit = false → addr = 0) ∧
    (s.ss.bar0setup &&& s.cfg.bar0En = 0 → hit = false) ∧
    (s.ss.bar0setup &&& s.cfg.bar0En ≠ 0 →
      (hit = true ↔ ∀ i, i < 32 → 16 ≤ i → s.ss.bar0setup.getLsbD i = false → a.getLsbD i = s.ss.imbasebar0.getLsbD i) ∧
      (hit = true → ∀ i, i < 32 → addr.getLsbD i =
        if i < 16 ∨ s.ss.bar0setup.getLsbD i = true then a.getLsbD i else s.ss.imbasebar0.getLsbD i))) ∧
  (∀ (s : State) (a : Word), s.cfg.Wf → s.ss.bar0setup = s.cfg.bar0Mask2g ||| s.cfg.bar0En → s.cfg.bar0En.toNat < 2 ^ 16 →
    s.ss.imbasebar0 = 0 →
    exec (.inbXlate a) s = .next { s with
      xHit := decide (a.toNat < s.cfg.inbSize), xAddr := if a.toNat < s.cfg.inbSize then a else 0 }) ∧
  (∀ (s : State) (a : Word), s.cfg.Wf → s.ss.bar0setup = s.cfg.bar0Mask2g →
    exec (.inbXlate a) s = .next { s with xHit := false, xAddr := 0 })

/-- O57. R289, R290, R161, R163. OUTB_MEM_XLATE, OUTB_IO_XLATE and XREQ.RESERVED: what each claims, the address unchanged, and nothing else
changes. -/
def Obligations.OutboundWindows : Prop :=
  ∀ (s : State) (a : Word),
    exec (.outbMemXlate a) s = .next
      (if s.br.membase = s.cfg.membaseSentinel ∧ s.cfg.memWinBase.toNat ≤ a.toNat ∧
          a.toNat < s.cfg.memWinBase.toNat + s.cfg.memWinSize.toNat
        then { s with xHit := true, xAddr := a } else { s with xHit := false, xAddr := 0 }) ∧
    exec (.outbIoXlate a) s = .next
      (if s.br.iobase.toNat ≤ a.toNat ∧ a.toNat < s.br.iobase.toNat + s.cfg.ioWinSize.toNat
        then { s with xHit := true, xAddr := a } else { s with xHit := false, xAddr := 0 }) ∧
    exec (.xreqReserved a) s = .next { s with xHit := false, xAddr := 0 }

/-- O58. R291, R17. After bring-up no address is claimed by both outbound windows, and none in the on-chip registers by either. That the ends
of the intervals of R17 (g) are compared without wrapping is log 32 (DESIGN CHOICE). -/
def Obligations.AtMostOneOutboundWindowClaims : Prop :=
  ∀ (s t u : State) (a : Word), s.cfg.Wf → s.br.iobase = s.cfg.ioWinBase →
    exec (.outbMemXlate a) s = .next t → exec (.outbIoXlate a) s = .next u →
    ¬(t.xHit = true ∧ u.xHit = true) ∧
    (s.cfg.onchipBase ≤ a.toNat → a.toNat < s.cfg.onchipBase + s.cfg.onchipSize → t.xHit = false ∧ u.xHit = false)

/-- O59. R156, R158, R159, R155, R153, R41. F-TOKEN, F-PHYW, F-BAR, F-DEVFN and F-RES as operations: the register each word arrives in, and
nothing else (log 8). That a format arrives as an operation is log 8. -/
def Obligations.WireWordsArrive : Prop :=
  ∀ s : State,
    (∀ (ext : BitVec 4) (bus : Byte) (slot : BitVec 5) (func : BitVec 3) (reg : BitVec 6),
      exec (.fToken ext bus slot func reg) s = .next { s with
        br := { s.br with cfgaddr := token s.cfg bus (slot ++ func) (ext ++ reg ++ 0#2) } } ∧
      (s.cfg.tokenEn = 0x80000000 →
        encode (.fToken ext bus slot func reg) = some (.tokenWord (token s.cfg bus (slot ++ func) (ext ++ reg ++ 0#2))))) ∧
    (∀ addr data : Byte,
      exec (.fPhyw addr data) s = .next { s with phyLog := s.phyLog ++ [⟨addr, data, false⟩] } ∧
      (s.cfg.phyWriteMode = 0x00800000 → s.cfg.phyAddrShift = 8 → s.cfg.phyDataShift = 0 →
        encode (.fPhyw addr data) = some (.phyWord (phyControl s.cfg addr data)))) ∧
    (∀ (mask : Half) (en : BitVec 1),
      ∃ w : Word, exec (.fBar mask en) s = .next { s with ss := { s.ss with bar0setup := w } } ∧
        w = BitVec.ofNat 32 (mask.toNat * 2 ^ 16) ||| (if en = 1 then s.cfg.bar0En else 0) ∧
        (s.cfg.bar0En = 1 → encode (.fBar mask en) = some (.barWord w))) ∧
    (∀ (slot : BitVec 5) (func : BitVec 3),
      ∃ b : Byte, exec (.fDevfn slot func) s = .next { s with lat := { s.lat with devfn := b } } ∧
        slotOf b = slot ∧ funcOf b = func ∧ encode (.fDevfn slot func) = some (.devfnByte b)) ∧
    (∀ (rdata : Word) (aux status : Byte),
      exec (.fRes rdata aux status) s = .next { s with
        res := { status := status, aux := aux, rdata := rdata }, busy := false })

/-- O60. R151, R152, R168. F-CMD (fCmd): the command format with any op does exactly what the decoded command word does, and always completes.
That the format F-CMD taken as an operation is accepted and executed is log 8 (DESIGN CHOICE): the spec gives a format no operation of its
own. -/
def Obligations.CommandFormatIsTheCommand : Prop :=
  ∀ (s : State) (wdata : Word) (bus devfn : Byte) (off : BitVec 12) (op : BitVec 4),
    ∃ i t, decode (.command (encodeCommand op wdata bus devfn off)) = .ok i ∧
      exec (.fCmd wdata bus devfn off op) s = .next t ∧ exec i s = .next t
end

