-- ==== Sys2Proof/Laws/State.lean ====
section
/-! SUPPORT. The small lemmas of the named operations: for each, the value of every field after it, true by rfl. A field that is not
listed for an operation has no one-line value; Laws/Registers.lean and Laws/ConfigAccess.lean give it. -/

namespace Sys2Proof.Machine

@[simp] theorem State.takeResOk_cfg (s : State) : (s.takeResOk).cfg = s.cfg := rfl
@[simp] theorem State.takeResOk_ls (s : State) : (s.takeResOk).ls = s.ls := rfl
@[simp] theorem State.takeResOk_seq (s : State) : (s.takeResOk).seq = s.seq := rfl
@[simp] theorem State.takeResOk_lat (s : State) : (s.takeResOk).lat = s.lat := rfl
@[simp] theorem State.takeResOk_res (s : State) : (s.takeResOk).res = s.res := rfl
@[simp] theorem State.takeResOk_work (s : State) : (s.takeResOk).work = s.work := rfl
@[simp] theorem State.takeResOk_attached (s : State) : (s.takeResOk).attached = s.attached := rfl
@[simp] theorem State.takeResOk_registered (s : State) : (s.takeResOk).registered = s.registered := rfl
@[simp] theorem State.takeResOk_calFail (s : State) : (s.takeResOk).calFail = s.calFail := rfl
@[simp] theorem State.takeResOk_busy (s : State) : (s.takeResOk).busy = s.busy := rfl
@[simp] theorem State.takeResOk_fixup (s : State) : (s.takeResOk).fixup = s.fixup := rfl
@[simp] theorem State.takeResOk_rstOut (s : State) : (s.takeResOk).rstOut = s.rstOut := rfl
@[simp] theorem State.takeResOk_br (s : State) : (s.takeResOk).br = s.br := rfl
@[simp] theorem State.takeResOk_ss (s : State) : (s.takeResOk).ss = s.ss := rfl
@[simp] theorem State.takeResOk_sc (s : State) : (s.takeResOk).sc = s.sc := rfl
@[simp] theorem State.takeResOk_phyLog (s : State) : (s.takeResOk).phyLog = s.phyLog := rfl
@[simp] theorem State.takeResOk_plain (s : State) : (s.takeResOk).plain = s.plain := rfl
@[simp] theorem State.takeResOk_mem (s : State) : (s.takeResOk).mem = s.mem := rfl
@[simp] theorem State.takeResOk_hist (s : State) : (s.takeResOk).hist = s.hist := rfl
@[simp] theorem State.takeResOk_raised (s : State) : (s.takeResOk).raised = s.raised := rfl
@[simp] theorem State.takeResOk_ans (s : State) : (s.takeResOk).ans = s.ans := rfl
@[simp] theorem State.takeResOk_xHit (s : State) : (s.takeResOk).xHit = s.xHit := rfl
@[simp] theorem State.takeResOk_xAddr (s : State) : (s.takeResOk).xAddr = s.xAddr := rfl
@[simp] theorem State.takeResOk_ret (s : State) : (s.takeResOk).ret = s.ret := rfl
@[simp] theorem State.takeResOk_inputs (s : State) : (s.takeResOk).inputs = s.inputs := rfl
@[simp] theorem State.takeResOk_draws (s : State) : (s.takeResOk).draws = s.draws := rfl
@[simp] theorem State.takeResOk_drawCount (s : State) : (s.takeResOk).drawCount = s.drawCount := rfl
@[simp] theorem State.takeResOk_resOks (s : State) : (s.takeResOk).resOks = s.resOks.tail := rfl
@[simp] theorem State.takeResOk_resOkCount (s : State) : (s.takeResOk).resOkCount = s.resOkCount + 1 := rfl
@[simp] theorem State.takeResOk_epoch (s : State) : (s.takeResOk).epoch = s.epoch := rfl

@[simp] theorem State.raise_cfg (s : State) (c : Condition) : (s.raise c).cfg = s.cfg := rfl
@[simp] theorem State.raise_ls (s : State) (c : Condition) : (s.raise c).ls = s.ls := rfl
@[simp] theorem State.raise_seq (s : State) (c : Condition) : (s.raise c).seq = s.seq := rfl
@[simp] theorem State.raise_lat (s : State) (c : Condition) : (s.raise c).lat = s.lat := rfl
@[simp] theorem State.raise_res (s : State) (c : Condition) : (s.raise c).res = s.res := rfl
@[simp] theorem State.raise_work (s : State) (c : Condition) : (s.raise c).work = s.work := rfl
@[simp] theorem State.raise_attached (s : State) (c : Condition) : (s.raise c).attached = s.attached := rfl
@[simp] theorem State.raise_registered (s : State) (c : Condition) : (s.raise c).registered = s.registered := rfl
@[simp] theorem State.raise_calFail (s : State) (c : Condition) : (s.raise c).calFail = s.calFail := rfl
@[simp] theorem State.raise_busy (s : State) (c : Condition) : (s.raise c).busy = s.busy := rfl
@[simp] theorem State.raise_fixup (s : State) (c : Condition) : (s.raise c).fixup = s.fixup := rfl
@[simp] theorem State.raise_rstOut (s : State) (c : Condition) : (s.raise c).rstOut = s.rstOut := rfl
@[simp] theorem State.raise_br (s : State) (c : Condition) : (s.raise c).br = s.br := rfl
@[simp] theorem State.raise_ss (s : State) (c : Condition) : (s.raise c).ss = s.ss := rfl
@[simp] theorem State.raise_sc (s : State) (c : Condition) : (s.raise c).sc = s.sc := rfl
@[simp] theorem State.raise_phyLog (s : State) (c : Condition) : (s.raise c).phyLog = s.phyLog := rfl
@[simp] theorem State.raise_plain (s : State) (c : Condition) : (s.raise c).plain = s.plain := rfl
@[simp] theorem State.raise_mem (s : State) (c : Condition) : (s.raise c).mem = s.mem := rfl
@[simp] theorem State.raise_hist (s : State) (c : Condition) : (s.raise c).hist = s.hist := rfl
@[simp] theorem State.raise_raised (s : State) (c : Condition) : (s.raise c).raised = s.raised ++ [c] := rfl
@[simp] theorem State.raise_ans (s : State) (c : Condition) : (s.raise c).ans = s.ans := rfl
@[simp] theorem State.raise_xHit (s : State) (c : Condition) : (s.raise c).xHit = s.xHit := rfl
@[simp] theorem State.raise_xAddr (s : State) (c : Condition) : (s.raise c).xAddr = s.xAddr := rfl
@[simp] theorem State.raise_ret (s : State) (c : Condition) : (s.raise c).ret = s.ret := rfl
@[simp] theorem State.raise_inputs (s : State) (c : Condition) : (s.raise c).inputs = s.inputs := rfl
@[simp] theorem State.raise_draws (s : State) (c : Condition) : (s.raise c).draws = s.draws := rfl
@[simp] theorem State.raise_drawCount (s : State) (c : Condition) : (s.raise c).drawCount = s.drawCount := rfl
@[simp] theorem State.raise_resOks (s : State) (c : Condition) : (s.raise c).resOks = s.resOks := rfl
@[simp] theorem State.raise_resOkCount (s : State) (c : Condition) : (s.raise c).resOkCount = s.resOkCount := rfl
@[simp] theorem State.raise_epoch (s : State) (c : Condition) : (s.raise c).epoch = s.epoch := rfl

@[simp] theorem State.brRd32_cfg (s : State) (off : Half) : (s.brRd32 off).cfg = s.cfg := rfl
@[simp] theorem State.brRd32_ls (s : State) (off : Half) : (s.brRd32 off).ls = s.ls := rfl
@[simp] theorem State.brRd32_seq (s : State) (off : Half) : (s.brRd32 off).seq = s.seq := rfl
@[simp] theorem State.brRd32_lat (s : State) (off : Half) : (s.brRd32 off).lat = s.lat := rfl
@[simp] theorem State.brRd32_res (s : State) (off : Half) : (s.brRd32 off).res = s.res := rfl
@[simp] theorem State.brRd32_work (s : State) (off : Half) : (s.brRd32 off).work = s.work := rfl
@[simp] theorem State.brRd32_attached (s : State) (off : Half) : (s.brRd32 off).attached = s.attached := rfl
@[simp] theorem State.brRd32_registered (s : State) (off : Half) : (s.brRd32 off).registered = s.registered := rfl
@[simp] theorem State.brRd32_calFail (s : State) (off : Half) : (s.brRd32 off).calFail = s.calFail := rfl
@[simp] theorem State.brRd32_busy (s : State) (off : Half) : (s.brRd32 off).busy = s.busy := rfl
@[simp] theorem State.brRd32_fixup (s : State) (off : Half) : (s.brRd32 off).fixup = s.fixup := rfl
@[simp] theorem State.brRd32_rstOut (s : State) (off : Half) : (s.brRd32 off).rstOut = s.rstOut := rfl
@[simp] theorem State.brRd32_br (s : State) (off : Half) : (s.brRd32 off).br = s.br := rfl
@[simp] theorem State.brRd32_ss (s : State) (off : Half) : (s.brRd32 off).ss = s.ss := rfl
@[simp] theorem State.brRd32_sc (s : State) (off : Half) : (s.brRd32 off).sc = s.sc := rfl
@[simp] theorem State.brRd32_phyLog (s : State) (off : Half) : (s.brRd32 off).phyLog = s.phyLog := rfl
@[simp] theorem State.brRd32_plain (s : State) (off : Half) : (s.brRd32 off).plain = s.plain := rfl
@[simp] theorem State.brRd32_mem (s : State) (off : Half) : (s.brRd32 off).mem = s.mem := rfl
@[simp] theorem State.brRd32_hist (s : State) (off : Half) : (s.brRd32 off).hist = s.hist ++ [.brRd off ((s.brFixed off).getD s.nextDraw)] := rfl
@[simp] theorem State.brRd32_raised (s : State) (off : Half) : (s.brRd32 off).raised = s.raised := rfl
@[simp] theorem State.brRd32_ans (s : State) (off : Half) : (s.brRd32 off).ans = (s.brFixed off).getD s.nextDraw := rfl
@[simp] theorem State.brRd32_xHit (s : State) (off : Half) : (s.brRd32 off).xHit = s.xHit := rfl
@[simp] theorem State.brRd32_xAddr (s : State) (off : Half) : (s.brRd32 off).xAddr = s.xAddr := rfl
@[simp] theorem State.brRd32_ret (s : State) (off : Half) : (s.brRd32 off).ret = s.ret := rfl
@[simp] theorem State.brRd32_inputs (s : State) (off : Half) : (s.brRd32 off).inputs = s.inputs := rfl
@[simp] theorem State.brRd32_draws (s : State) (off : Half) : (s.brRd32 off).draws = if (s.brFixed off).isNone then s.draws.tail else s.draws := rfl
@[simp] theorem State.brRd32_drawCount (s : State) (off : Half) : (s.brRd32 off).drawCount = if (s.brFixed off).isNone then s.drawCount + 1 else s.drawCount := rfl
@[simp] theorem State.brRd32_resOks (s : State) (off : Half) : (s.brRd32 off).resOks = s.resOks := rfl
@[simp] theorem State.brRd32_resOkCount (s : State) (off : Half) : (s.brRd32 off).resOkCount = s.resOkCount := rfl
@[simp] theorem State.brRd32_epoch (s : State) (off : Half) : (s.brRd32 off).epoch = s.epoch := rfl

@[simp] theorem State.ssRd32_cfg (s : State) (off : Half) : (s.ssRd32 off).cfg = s.cfg := rfl
@[simp] theorem State.ssRd32_ls (s : State) (off : Half) : (s.ssRd32 off).ls = s.ls := rfl
@[simp] theorem State.ssRd32_seq (s : State) (off : Half) : (s.ssRd32 off).seq = s.seq := rfl
@[simp] theorem State.ssRd32_lat (s : State) (off : Half) : (s.ssRd32 off).lat = s.lat := rfl
@[simp] theorem State.ssRd32_res (s : State) (off : Half) : (s.ssRd32 off).res = s.res := rfl
@[simp] theorem State.ssRd32_work (s : State) (off : Half) : (s.ssRd32 off).work = s.work := rfl
@[simp] theorem State.ssRd32_attached (s : State) (off : Half) : (s.ssRd32 off).attached = s.attached := rfl
@[simp] theorem State.ssRd32_registered (s : State) (off : Half) : (s.ssRd32 off).registered = s.registered := rfl
@[simp] theorem State.ssRd32_calFail (s : State) (off : Half) : (s.ssRd32 off).calFail = s.calFail := rfl
@[simp] theorem State.ssRd32_busy (s : State) (off : Half) : (s.ssRd32 off).busy = s.busy := rfl
@[simp] theorem State.ssRd32_fixup (s : State) (off : Half) : (s.ssRd32 off).fixup = s.fixup := rfl
@[simp] theorem State.ssRd32_rstOut (s : State) (off : Half) : (s.ssRd32 off).rstOut = s.rstOut := rfl
@[simp] theorem State.ssRd32_br (s : State) (off : Half) : (s.ssRd32 off).br = s.br := rfl
@[simp] theorem State.ssRd32_ss (s : State) (off : Half) : (s.ssRd32 off).ss = s.ss := rfl
@[simp] theorem State.ssRd32_sc (s : State) (off : Half) : (s.ssRd32 off).sc = s.sc := rfl
@[simp] theorem State.ssRd32_phyLog (s : State) (off : Half) : (s.ssRd32 off).phyLog = s.phyLog := rfl
@[simp] theorem State.ssRd32_plain (s : State) (off : Half) : (s.ssRd32 off).plain = s.plain := rfl
@[simp] theorem State.ssRd32_mem (s : State) (off : Half) : (s.ssRd32 off).mem = s.mem := rfl
@[simp] theorem State.ssRd32_hist (s : State) (off : Half) : (s.ssRd32 off).hist = s.hist ++ [.ssRd off ((s.ssFixed off).getD s.nextDraw)] := rfl
@[simp] theorem State.ssRd32_raised (s : State) (off : Half) : (s.ssRd32 off).raised = s.raised := rfl
@[simp] theorem State.ssRd32_ans (s : State) (off : Half) : (s.ssRd32 off).ans = (s.ssFixed off).getD s.nextDraw := rfl
@[simp] theorem State.ssRd32_xHit (s : State) (off : Half) : (s.ssRd32 off).xHit = s.xHit := rfl
@[simp] theorem State.ssRd32_xAddr (s : State) (off : Half) : (s.ssRd32 off).xAddr = s.xAddr := rfl
@[simp] theorem State.ssRd32_ret (s : State) (off : Half) : (s.ssRd32 off).ret = s.ret := rfl
@[simp] theorem State.ssRd32_inputs (s : State) (off : Half) : (s.ssRd32 off).inputs = s.inputs := rfl
@[simp] theorem State.ssRd32_draws (s : State) (off : Half) : (s.ssRd32 off).draws = if (s.ssFixed off).isNone then s.draws.tail else s.draws := rfl
@[simp] theorem State.ssRd32_drawCount (s : State) (off : Half) : (s.ssRd32 off).drawCount = if (s.ssFixed off).isNone then s.drawCount + 1 else s.drawCount := rfl
@[simp] theorem State.ssRd32_resOks (s : State) (off : Half) : (s.ssRd32 off).resOks = s.resOks := rfl
@[simp] theorem State.ssRd32_resOkCount (s : State) (off : Half) : (s.ssRd32 off).resOkCount = s.resOkCount := rfl
@[simp] theorem State.ssRd32_epoch (s : State) (off : Half) : (s.ssRd32 off).epoch = s.epoch := rfl

@[simp] theorem State.scRd32_cfg (s : State) (off : Half) : (s.scRd32 off).cfg = s.cfg := rfl
@[simp] theorem State.scRd32_ls (s : State) (off : Half) : (s.scRd32 off).ls = s.ls := rfl
@[simp] theorem State.scRd32_seq (s : State) (off : Half) : (s.scRd32 off).seq = s.seq := rfl
@[simp] theorem State.scRd32_lat (s : State) (off : Half) : (s.scRd32 off).lat = s.lat := rfl
@[simp] theorem State.scRd32_res (s : State) (off : Half) : (s.scRd32 off).res = s.res := rfl
@[simp] theorem State.scRd32_work (s : State) (off : Half) : (s.scRd32 off).work = s.work := rfl
@[simp] theorem State.scRd32_attached (s : State) (off : Half) : (s.scRd32 off).attached = s.attached := rfl
@[simp] theorem State.scRd32_registered (s : State) (off : Half) : (s.scRd32 off).registered = s.registered := rfl
@[simp] theorem State.scRd32_calFail (s : State) (off : Half) : (s.scRd32 off).calFail = s.calFail := rfl
@[simp] theorem State.scRd32_busy (s : State) (off : Half) : (s.scRd32 off).busy = s.busy := rfl
@[simp] theorem State.scRd32_fixup (s : State) (off : Half) : (s.scRd32 off).fixup = s.fixup := rfl
@[simp] theorem State.scRd32_rstOut (s : State) (off : Half) : (s.scRd32 off).rstOut = s.rstOut := rfl
@[simp] theorem State.scRd32_br (s : State) (off : Half) : (s.scRd32 off).br = s.br := rfl
@[simp] theorem State.scRd32_ss (s : State) (off : Half) : (s.scRd32 off).ss = s.ss := rfl
@[simp] theorem State.scRd32_sc (s : State) (off : Half) : (s.scRd32 off).sc = s.sc := rfl
@[simp] theorem State.scRd32_phyLog (s : State) (off : Half) : (s.scRd32 off).phyLog = s.phyLog := rfl
@[simp] theorem State.scRd32_plain (s : State) (off : Half) : (s.scRd32 off).plain = s.plain := rfl
@[simp] theorem State.scRd32_mem (s : State) (off : Half) : (s.scRd32 off).mem = s.mem := rfl
@[simp] theorem State.scRd32_hist (s : State) (off : Half) : (s.scRd32 off).hist = s.hist ++ [.scRd off ((s.scFixed off).getD s.nextDraw)] := rfl
@[simp] theorem State.scRd32_raised (s : State) (off : Half) : (s.scRd32 off).raised = s.raised := rfl
@[simp] theorem State.scRd32_ans (s : State) (off : Half) : (s.scRd32 off).ans = (s.scFixed off).getD s.nextDraw := rfl
@[simp] theorem State.scRd32_xHit (s : State) (off : Half) : (s.scRd32 off).xHit = s.xHit := rfl
@[simp] theorem State.scRd32_xAddr (s : State) (off : Half) : (s.scRd32 off).xAddr = s.xAddr := rfl
@[simp] theorem State.scRd32_ret (s : State) (off : Half) : (s.scRd32 off).ret = s.ret := rfl
@[simp] theorem State.scRd32_inputs (s : State) (off : Half) : (s.scRd32 off).inputs = s.inputs := rfl
@[simp] theorem State.scRd32_draws (s : State) (off : Half) : (s.scRd32 off).draws = if (s.scFixed off).isNone then s.draws.tail else s.draws := rfl
@[simp] theorem State.scRd32_drawCount (s : State) (off : Half) : (s.scRd32 off).drawCount = if (s.scFixed off).isNone then s.drawCount + 1 else s.drawCount := rfl
@[simp] theorem State.scRd32_resOks (s : State) (off : Half) : (s.scRd32 off).resOks = s.resOks := rfl
@[simp] theorem State.scRd32_resOkCount (s : State) (off : Half) : (s.scRd32 off).resOkCount = s.resOkCount := rfl
@[simp] theorem State.scRd32_epoch (s : State) (off : Half) : (s.scRd32 off).epoch = s.epoch := rfl

@[simp] theorem State.brWr32_cfg (s : State) (off : Half) (v : Word) : (s.brWr32 off v).cfg = s.cfg := rfl
@[simp] theorem State.brWr32_ls (s : State) (off : Half) (v : Word) : (s.brWr32 off v).ls = s.ls := rfl
@[simp] theorem State.brWr32_seq (s : State) (off : Half) (v : Word) : (s.brWr32 off v).seq = s.seq := rfl
@[simp] theorem State.brWr32_lat (s : State) (off : Half) (v : Word) : (s.brWr32 off v).lat = s.lat := rfl
@[simp] theorem State.brWr32_res (s : State) (off : Half) (v : Word) : (s.brWr32 off v).res = s.res := rfl
@[simp] theorem State.brWr32_work (s : State) (off : Half) (v : Word) : (s.brWr32 off v).work = s.work := rfl
@[simp] theorem State.brWr32_attached (s : State) (off : Half) (v : Word) : (s.brWr32 off v).attached = s.attached := rfl
@[simp] theorem State.brWr32_registered (s : State) (off : Half) (v : Word) : (s.brWr32 off v).registered = s.registered := rfl
@[simp] theorem State.brWr32_calFail (s : State) (off : Half) (v : Word) : (s.brWr32 off v).calFail = s.calFail := rfl
@[simp] theorem State.brWr32_busy (s : State) (off : Half) (v : Word) : (s.brWr32 off v).busy = s.busy := rfl
@[simp] theorem State.brWr32_fixup (s : State) (off : Half) (v : Word) : (s.brWr32 off v).fixup = s.fixup := rfl
@[simp] theorem State.brWr32_rstOut (s : State) (off : Half) (v : Word) : (s.brWr32 off v).rstOut = s.rstOut := rfl
@[simp] theorem State.brWr32_br (s : State) (off : Half) (v : Word) : (s.brWr32 off v).br = s.br.write s.cfg off v := rfl
@[simp] theorem State.brWr32_ss (s : State) (off : Half) (v : Word) : (s.brWr32 off v).ss = s.ss := rfl
@[simp] theorem State.brWr32_sc (s : State) (off : Half) (v : Word) : (s.brWr32 off v).sc = s.sc := rfl
@[simp] theorem State.brWr32_phyLog (s : State) (off : Half) (v : Word) : (s.brWr32 off v).phyLog = s.phyLog := rfl
@[simp] theorem State.brWr32_plain (s : State) (off : Half) (v : Word) : (s.brWr32 off v).plain = s.plain := rfl
@[simp] theorem State.brWr32_mem (s : State) (off : Half) (v : Word) : (s.brWr32 off v).mem = if off = s.cfg.offCfgdata then s.cfgStore v else s.mem := rfl
@[simp] theorem State.brWr32_hist (s : State) (off : Half) (v : Word) : (s.brWr32 off v).hist = s.hist ++ [.brWr off v] := rfl
@[simp] theorem State.brWr32_raised (s : State) (off : Half) (v : Word) : (s.brWr32 off v).raised = s.raised := rfl
@[simp] theorem State.brWr32_ans (s : State) (off : Half) (v : Word) : (s.brWr32 off v).ans = s.ans := rfl
@[simp] theorem State.brWr32_xHit (s : State) (off : Half) (v : Word) : (s.brWr32 off v).xHit = s.xHit := rfl
@[simp] theorem State.brWr32_xAddr (s : State) (off : Half) (v : Word) : (s.brWr32 off v).xAddr = s.xAddr := rfl
@[simp] theorem State.brWr32_ret (s : State) (off : Half) (v : Word) : (s.brWr32 off v).ret = s.ret := rfl
@[simp] theorem State.brWr32_inputs (s : State) (off : Half) (v : Word) : (s.brWr32 off v).inputs = s.inputs := rfl
@[simp] theorem State.brWr32_draws (s : State) (off : Half) (v : Word) : (s.brWr32 off v).draws = s.draws := rfl
@[simp] theorem State.brWr32_drawCount (s : State) (off : Half) (v : Word) : (s.brWr32 off v).drawCount = s.drawCount := rfl
@[simp] theorem State.brWr32_resOks (s : State) (off : Half) (v : Word) : (s.brWr32 off v).resOks = s.resOks := rfl
@[simp] theorem State.brWr32_resOkCount (s : State) (off : Half) (v : Word) : (s.brWr32 off v).resOkCount = s.resOkCount := rfl
@[simp] theorem State.brWr32_epoch (s : State) (off : Half) (v : Word) : (s.brWr32 off v).epoch = s.epoch := rfl

@[simp] theorem State.brMod32_cfg (s : State) (off : Half) (clr set : Word) : (s.brMod32 off clr set).cfg = s.cfg := rfl
@[simp] theorem State.brMod32_ls (s : State) (off : Half) (clr set : Word) : (s.brMod32 off clr set).ls = s.ls := rfl
@[simp] theorem State.brMod32_seq (s : State) (off : Half) (clr set : Word) : (s.brMod32 off clr set).seq = s.seq := rfl
@[simp] theorem State.brMod32_lat (s : State) (off : Half) (clr set : Word) : (s.brMod32 off clr set).lat = s.lat := rfl
@[simp] theorem State.brMod32_res (s : State) (off : Half) (clr set : Word) : (s.brMod32 off clr set).res = s.res := rfl
@[simp] theorem State.brMod32_work (s : State) (off : Half) (clr set : Word) : (s.brMod32 off clr set).work = s.work := rfl
@[simp] theorem State.brMod32_attached (s : State) (off : Half) (clr set : Word) : (s.brMod32 off clr set).attached = s.attached := rfl
@[simp] theorem State.brMod32_registered (s : State) (off : Half) (clr set : Word) : (s.brMod32 off clr set).registered = s.registered := rfl
@[simp] theorem State.brMod32_calFail (s : State) (off : Half) (clr set : Word) : (s.brMod32 off clr set).calFail = s.calFail := rfl
@[simp] theorem State.brMod32_busy (s : State) (off : Half) (clr set : Word) : (s.brMod32 off clr set).busy = s.busy := rfl
@[simp] theorem State.brMod32_fixup (s : State) (off : Half) (clr set : Word) : (s.brMod32 off clr set).fixup = s.fixup := rfl
@[simp] theorem State.brMod32_rstOut (s : State) (off : Half) (clr set : Word) : (s.brMod32 off clr set).rstOut = s.rstOut := rfl
@[simp] theorem State.brMod32_ss (s : State) (off : Half) (clr set : Word) : (s.brMod32 off clr set).ss = s.ss := rfl
@[simp] theorem State.brMod32_sc (s : State) (off : Half) (clr set : Word) : (s.brMod32 off clr set).sc = s.sc := rfl
@[simp] theorem State.brMod32_phyLog (s : State) (off : Half) (clr set : Word) : (s.brMod32 off clr set).phyLog = s.phyLog := rfl
@[simp] theorem State.brMod32_plain (s : State) (off : Half) (clr set : Word) : (s.brMod32 off clr set).plain = s.plain := rfl
@[simp] theorem State.brMod32_raised (s : State) (off : Half) (clr set : Word) : (s.brMod32 off clr set).raised = s.raised := rfl
@[simp] theorem State.brMod32_xHit (s : State) (off : Half) (clr set : Word) : (s.brMod32 off clr set).xHit = s.xHit := rfl
@[simp] theorem State.brMod32_xAddr (s : State) (off : Half) (clr set : Word) : (s.brMod32 off clr set).xAddr = s.xAddr := rfl
@[simp] theorem State.brMod32_ret (s : State) (off : Half) (clr set : Word) : (s.brMod32 off clr set).ret = s.ret := rfl
@[simp] theorem State.brMod32_inputs (s : State) (off : Half) (clr set : Word) : (s.brMod32 off clr set).inputs = s.inputs := rfl
@[simp] theorem State.brMod32_resOks (s : State) (off : Half) (clr set : Word) : (s.brMod32 off clr set).resOks = s.resOks := rfl
@[simp] theorem State.brMod32_resOkCount (s : State) (off : Half) (clr set : Word) : (s.brMod32 off clr set).resOkCount = s.resOkCount := rfl
@[simp] theorem State.brMod32_epoch (s : State) (off : Half) (clr set : Word) : (s.brMod32 off clr set).epoch = s.epoch := rfl

@[simp] theorem State.ssWr32_cfg (s : State) (off : Half) (v : Word) : (s.ssWr32 off v).cfg = s.cfg := rfl
@[simp] theorem State.ssWr32_ls (s : State) (off : Half) (v : Word) : (s.ssWr32 off v).ls = s.ls := rfl
@[simp] theorem State.ssWr32_seq (s : State) (off : Half) (v : Word) : (s.ssWr32 off v).seq = s.seq := rfl
@[simp] theorem State.ssWr32_lat (s : State) (off : Half) (v : Word) : (s.ssWr32 off v).lat = s.lat := rfl
@[simp] theorem State.ssWr32_res (s : State) (off : Half) (v : Word) : (s.ssWr32 off v).res = s.res := rfl
@[simp] theorem State.ssWr32_work (s : State) (off : Half) (v : Word) : (s.ssWr32 off v).work = s.work := rfl
@[simp] theorem State.ssWr32_attached (s : State) (off : Half) (v : Word) : (s.ssWr32 off v).attached = s.attached := rfl
@[simp] theorem State.ssWr32_registered (s : State) (off : Half) (v : Word) : (s.ssWr32 off v).registered = s.registered := rfl
@[simp] theorem State.ssWr32_calFail (s : State) (off : Half) (v : Word) : (s.ssWr32 off v).calFail = s.calFail := rfl
@[simp] theorem State.ssWr32_busy (s : State) (off : Half) (v : Word) : (s.ssWr32 off v).busy = s.busy := rfl
@[simp] theorem State.ssWr32_fixup (s : State) (off : Half) (v : Word) : (s.ssWr32 off v).fixup = s.fixup := rfl
@[simp] theorem State.ssWr32_rstOut (s : State) (off : Half) (v : Word) : (s.ssWr32 off v).rstOut = s.rstOut := rfl
@[simp] theorem State.ssWr32_br (s : State) (off : Half) (v : Word) : (s.ssWr32 off v).br = s.br := rfl
@[simp] theorem State.ssWr32_ss (s : State) (off : Half) (v : Word) : (s.ssWr32 off v).ss = s.ss.write s.cfg off v := rfl
@[simp] theorem State.ssWr32_sc (s : State) (off : Half) (v : Word) : (s.ssWr32 off v).sc = s.sc := rfl
@[simp] theorem State.ssWr32_phyLog (s : State) (off : Half) (v : Word) : (s.ssWr32 off v).phyLog = if off = s.cfg.offPhycfg then s.phyLog ++ s.phyStarts v else s.phyLog := rfl
@[simp] theorem State.ssWr32_plain (s : State) (off : Half) (v : Word) : (s.ssWr32 off v).plain = s.plain := rfl
@[simp] theorem State.ssWr32_mem (s : State) (off : Half) (v : Word) : (s.ssWr32 off v).mem = s.mem := rfl
@[simp] theorem State.ssWr32_hist (s : State) (off : Half) (v : Word) : (s.ssWr32 off v).hist = s.hist ++ [.ssWr off v] := rfl
@[simp] theorem State.ssWr32_raised (s : State) (off : Half) (v : Word) : (s.ssWr32 off v).raised = s.raised := rfl
@[simp] theorem State.ssWr32_ans (s : State) (off : Half) (v : Word) : (s.ssWr32 off v).ans = s.ans := rfl
@[simp] theorem State.ssWr32_xHit (s : State) (off : Half) (v : Word) : (s.ssWr32 off v).xHit = s.xHit := rfl
@[simp] theorem State.ssWr32_xAddr (s : State) (off : Half) (v : Word) : (s.ssWr32 off v).xAddr = s.xAddr := rfl
@[simp] theorem State.ssWr32_ret (s : State) (off : Half) (v : Word) : (s.ssWr32 off v).ret = s.ret := rfl
@[simp] theorem State.ssWr32_inputs (s : State) (off : Half) (v : Word) : (s.ssWr32 off v).inputs = s.inputs := rfl
@[simp] theorem State.ssWr32_draws (s : State) (off : Half) (v : Word) : (s.ssWr32 off v).draws = s.draws := rfl
@[simp] theorem State.ssWr32_drawCount (s : State) (off : Half) (v : Word) : (s.ssWr32 off v).drawCount = s.drawCount := rfl
@[simp] theorem State.ssWr32_resOks (s : State) (off : Half) (v : Word) : (s.ssWr32 off v).resOks = s.resOks := rfl
@[simp] theorem State.ssWr32_resOkCount (s : State) (off : Half) (v : Word) : (s.ssWr32 off v).resOkCount = s.resOkCount := rfl
@[simp] theorem State.ssWr32_epoch (s : State) (off : Half) (v : Word) : (s.ssWr32 off v).epoch = s.epoch := rfl

@[simp] theorem State.scMod32_cfg (s : State) (off : Half) (clr set : Word) : (s.scMod32 off clr set).cfg = s.cfg := rfl
@[simp] theorem State.scMod32_ls (s : State) (off : Half) (clr set : Word) : (s.scMod32 off clr set).ls = s.ls := rfl
@[simp] theorem State.scMod32_seq (s : State) (off : Half) (clr set : Word) : (s.scMod32 off clr set).seq = s.seq := rfl
@[simp] theorem State.scMod32_lat (s : State) (off : Half) (clr set : Word) : (s.scMod32 off clr set).lat = s.lat := rfl
@[simp] theorem State.scMod32_res (s : State) (off : Half) (clr set : Word) : (s.scMod32 off clr set).res = s.res := rfl
@[simp] theorem State.scMod32_work (s : State) (off : Half) (clr set : Word) : (s.scMod32 off clr set).work = s.work := rfl
@[simp] theorem State.scMod32_attached (s : State) (off : Half) (clr set : Word) : (s.scMod32 off clr set).attached = s.attached := rfl
@[simp] theorem State.scMod32_registered (s : State) (off : Half) (clr set : Word) : (s.scMod32 off clr set).registered = s.registered := rfl
@[simp] theorem State.scMod32_calFail (s : State) (off : Half) (clr set : Word) : (s.scMod32 off clr set).calFail = s.calFail := rfl
@[simp] theorem State.scMod32_busy (s : State) (off : Half) (clr set : Word) : (s.scMod32 off clr set).busy = s.busy := rfl
@[simp] theorem State.scMod32_fixup (s : State) (off : Half) (clr set : Word) : (s.scMod32 off clr set).fixup = s.fixup := rfl
@[simp] theorem State.scMod32_rstOut (s : State) (off : Half) (clr set : Word) : (s.scMod32 off clr set).rstOut = s.rstOut := rfl
@[simp] theorem State.scMod32_br (s : State) (off : Half) (clr set : Word) : (s.scMod32 off clr set).br = s.br := rfl
@[simp] theorem State.scMod32_ss (s : State) (off : Half) (clr set : Word) : (s.scMod32 off clr set).ss = s.ss := rfl
@[simp] theorem State.scMod32_sc (s : State) (off : Half) (clr set : Word) : (s.scMod32 off clr set).sc = s.sc.modify s.cfg off clr set := rfl
@[simp] theorem State.scMod32_phyLog (s : State) (off : Half) (clr set : Word) : (s.scMod32 off clr set).phyLog = s.phyLog := rfl
@[simp] theorem State.scMod32_plain (s : State) (off : Half) (clr set : Word) : (s.scMod32 off clr set).plain = s.plain := rfl
@[simp] theorem State.scMod32_mem (s : State) (off : Half) (clr set : Word) : (s.scMod32 off clr set).mem = s.mem := rfl
@[simp] theorem State.scMod32_hist (s : State) (off : Half) (clr set : Word) : (s.scMod32 off clr set).hist = s.hist ++ [.scMod off clr set] := rfl
@[simp] theorem State.scMod32_raised (s : State) (off : Half) (clr set : Word) : (s.scMod32 off clr set).raised = s.raised := rfl
@[simp] theorem State.scMod32_ans (s : State) (off : Half) (clr set : Word) : (s.scMod32 off clr set).ans = s.ans := rfl
@[simp] theorem State.scMod32_xHit (s : State) (off : Half) (clr set : Word) : (s.scMod32 off clr set).xHit = s.xHit := rfl
@[simp] theorem State.scMod32_xAddr (s : State) (off : Half) (clr set : Word) : (s.scMod32 off clr set).xAddr = s.xAddr := rfl
@[simp] theorem State.scMod32_ret (s : State) (off : Half) (clr set : Word) : (s.scMod32 off clr set).ret = s.ret := rfl
@[simp] theorem State.scMod32_inputs (s : State) (off : Half) (clr set : Word) : (s.scMod32 off clr set).inputs = s.inputs := rfl
@[simp] theorem State.scMod32_draws (s : State) (off : Half) (clr set : Word) : (s.scMod32 off clr set).draws = s.draws := rfl
@[simp] theorem State.scMod32_drawCount (s : State) (off : Half) (clr set : Word) : (s.scMod32 off clr set).drawCount = s.drawCount := rfl
@[simp] theorem State.scMod32_resOks (s : State) (off : Half) (clr set : Word) : (s.scMod32 off clr set).resOks = s.resOks := rfl
@[simp] theorem State.scMod32_resOkCount (s : State) (off : Half) (clr set : Word) : (s.scMod32 off clr set).resOkCount = s.resOkCount := rfl
@[simp] theorem State.scMod32_epoch (s : State) (off : Half) (clr set : Word) : (s.scMod32 off clr set).epoch = s.epoch := rfl

@[simp] theorem State.rstAssert_cfg (s : State) : (s.rstAssert).cfg = s.cfg := rfl
@[simp] theorem State.rstAssert_ls (s : State) : (s.rstAssert).ls = s.ls := rfl
@[simp] theorem State.rstAssert_seq (s : State) : (s.rstAssert).seq = s.seq := rfl
@[simp] theorem State.rstAssert_lat (s : State) : (s.rstAssert).lat = s.lat := rfl
@[simp] theorem State.rstAssert_res (s : State) : (s.rstAssert).res = s.res := rfl
@[simp] theorem State.rstAssert_work (s : State) : (s.rstAssert).work = s.work := rfl
@[simp] theorem State.rstAssert_attached (s : State) : (s.rstAssert).attached = s.attached := rfl
@[simp] theorem State.rstAssert_registered (s : State) : (s.rstAssert).registered = s.registered := rfl
@[simp] theorem State.rstAssert_calFail (s : State) : (s.rstAssert).calFail = s.calFail := rfl
@[simp] theorem State.rstAssert_busy (s : State) : (s.rstAssert).busy = s.busy := rfl
@[simp] theorem State.rstAssert_fixup (s : State) : (s.rstAssert).fixup = s.fixup := rfl
@[simp] theorem State.rstAssert_rstOut (s : State) : (s.rstAssert).rstOut = true := rfl
@[simp] theorem State.rstAssert_br (s : State) : (s.rstAssert).br = s.br := rfl
@[simp] theorem State.rstAssert_ss (s : State) : (s.rstAssert).ss = s.ss := rfl
@[simp] theorem State.rstAssert_sc (s : State) : (s.rstAssert).sc = s.sc := rfl
@[simp] theorem State.rstAssert_phyLog (s : State) : (s.rstAssert).phyLog = s.phyLog := rfl
@[simp] theorem State.rstAssert_plain (s : State) : (s.rstAssert).plain = s.plain := rfl
@[simp] theorem State.rstAssert_mem (s : State) : (s.rstAssert).mem = s.mem := rfl
@[simp] theorem State.rstAssert_hist (s : State) : (s.rstAssert).hist = s.hist ++ [.rstAssert] := rfl
@[simp] theorem State.rstAssert_raised (s : State) : (s.rstAssert).raised = s.raised := rfl
@[simp] theorem State.rstAssert_ans (s : State) : (s.rstAssert).ans = s.ans := rfl
@[simp] theorem State.rstAssert_xHit (s : State) : (s.rstAssert).xHit = s.xHit := rfl
@[simp] theorem State.rstAssert_xAddr (s : State) : (s.rstAssert).xAddr = s.xAddr := rfl
@[simp] theorem State.rstAssert_ret (s : State) : (s.rstAssert).ret = s.ret := rfl
@[simp] theorem State.rstAssert_inputs (s : State) : (s.rstAssert).inputs = s.inputs := rfl
@[simp] theorem State.rstAssert_draws (s : State) : (s.rstAssert).draws = s.draws := rfl
@[simp] theorem State.rstAssert_drawCount (s : State) : (s.rstAssert).drawCount = s.drawCount := rfl
@[simp] theorem State.rstAssert_resOks (s : State) : (s.rstAssert).resOks = s.resOks := rfl
@[simp] theorem State.rstAssert_resOkCount (s : State) : (s.rstAssert).resOkCount = s.resOkCount := rfl
@[simp] theorem State.rstAssert_epoch (s : State) : (s.rstAssert).epoch = s.epoch := rfl

@[simp] theorem State.rstDeassert_cfg (s : State) : (s.rstDeassert).cfg = s.cfg := rfl
@[simp] theorem State.rstDeassert_ls (s : State) : (s.rstDeassert).ls = s.ls := rfl
@[simp] theorem State.rstDeassert_seq (s : State) : (s.rstDeassert).seq = s.seq := rfl
@[simp] theorem State.rstDeassert_lat (s : State) : (s.rstDeassert).lat = s.lat := rfl
@[simp] theorem State.rstDeassert_res (s : State) : (s.rstDeassert).res = s.res := rfl
@[simp] theorem State.rstDeassert_work (s : State) : (s.rstDeassert).work = s.work := rfl
@[simp] theorem State.rstDeassert_attached (s : State) : (s.rstDeassert).attached = s.attached := rfl
@[simp] theorem State.rstDeassert_registered (s : State) : (s.rstDeassert).registered = s.registered := rfl
@[simp] theorem State.rstDeassert_calFail (s : State) : (s.rstDeassert).calFail = s.calFail := rfl
@[simp] theorem State.rstDeassert_busy (s : State) : (s.rstDeassert).busy = s.busy := rfl
@[simp] theorem State.rstDeassert_fixup (s : State) : (s.rstDeassert).fixup = s.fixup := rfl
@[simp] theorem State.rstDeassert_rstOut (s : State) : (s.rstDeassert).rstOut = false := rfl
@[simp] theorem State.rstDeassert_br (s : State) : (s.rstDeassert).br = s.br := rfl
@[simp] theorem State.rstDeassert_ss (s : State) : (s.rstDeassert).ss = s.ss := rfl
@[simp] theorem State.rstDeassert_sc (s : State) : (s.rstDeassert).sc = s.sc := rfl
@[simp] theorem State.rstDeassert_phyLog (s : State) : (s.rstDeassert).phyLog = s.phyLog := rfl
@[simp] theorem State.rstDeassert_plain (s : State) : (s.rstDeassert).plain = s.plain := rfl
@[simp] theorem State.rstDeassert_mem (s : State) : (s.rstDeassert).mem = s.mem := rfl
@[simp] theorem State.rstDeassert_hist (s : State) : (s.rstDeassert).hist = s.hist ++ [.rstDeassert] := rfl
@[simp] theorem State.rstDeassert_raised (s : State) : (s.rstDeassert).raised = s.raised := rfl
@[simp] theorem State.rstDeassert_ans (s : State) : (s.rstDeassert).ans = s.ans := rfl
@[simp] theorem State.rstDeassert_xHit (s : State) : (s.rstDeassert).xHit = s.xHit := rfl
@[simp] theorem State.rstDeassert_xAddr (s : State) : (s.rstDeassert).xAddr = s.xAddr := rfl
@[simp] theorem State.rstDeassert_ret (s : State) : (s.rstDeassert).ret = s.ret := rfl
@[simp] theorem State.rstDeassert_inputs (s : State) : (s.rstDeassert).inputs = s.inputs := rfl
@[simp] theorem State.rstDeassert_draws (s : State) : (s.rstDeassert).draws = s.draws := rfl
@[simp] theorem State.rstDeassert_drawCount (s : State) : (s.rstDeassert).drawCount = s.drawCount := rfl
@[simp] theorem State.rstDeassert_resOks (s : State) : (s.rstDeassert).resOks = s.resOks := rfl
@[simp] theorem State.rstDeassert_resOkCount (s : State) : (s.rstDeassert).resOkCount = s.resOkCount := rfl
@[simp] theorem State.rstDeassert_epoch (s : State) : (s.rstDeassert).epoch = s.epoch := rfl

@[simp] theorem State.delay_cfg (s : State) (n : Word) : (s.delay n).cfg = s.cfg := rfl
@[simp] theorem State.delay_ls (s : State) (n : Word) : (s.delay n).ls = s.ls := rfl
@[simp] theorem State.delay_seq (s : State) (n : Word) : (s.delay n).seq = s.seq := rfl
@[simp] theorem State.delay_lat (s : State) (n : Word) : (s.delay n).lat = s.lat := rfl
@[simp] theorem State.delay_res (s : State) (n : Word) : (s.delay n).res = s.res := rfl
@[simp] theorem State.delay_work (s : State) (n : Word) : (s.delay n).work = s.work := rfl
@[simp] theorem State.delay_attached (s : State) (n : Word) : (s.delay n).attached = s.attached := rfl
@[simp] theorem State.delay_registered (s : State) (n : Word) : (s.delay n).registered = s.registered := rfl
@[simp] theorem State.delay_calFail (s : State) (n : Word) : (s.delay n).calFail = s.calFail := rfl
@[simp] theorem State.delay_busy (s : State) (n : Word) : (s.delay n).busy = s.busy := rfl
@[simp] theorem State.delay_fixup (s : State) (n : Word) : (s.delay n).fixup = s.fixup := rfl
@[simp] theorem State.delay_rstOut (s : State) (n : Word) : (s.delay n).rstOut = s.rstOut := rfl
@[simp] theorem State.delay_br (s : State) (n : Word) : (s.delay n).br = s.br := rfl
@[simp] theorem State.delay_ss (s : State) (n : Word) : (s.delay n).ss = s.ss := rfl
@[simp] theorem State.delay_sc (s : State) (n : Word) : (s.delay n).sc = s.sc := rfl
@[simp] theorem State.delay_phyLog (s : State) (n : Word) : (s.delay n).phyLog = s.phyLog := rfl
@[simp] theorem State.delay_plain (s : State) (n : Word) : (s.delay n).plain = s.plain := rfl
@[simp] theorem State.delay_mem (s : State) (n : Word) : (s.delay n).mem = s.mem := rfl
@[simp] theorem State.delay_hist (s : State) (n : Word) : (s.delay n).hist = s.hist ++ [.delay n] := rfl
@[simp] theorem State.delay_raised (s : State) (n : Word) : (s.delay n).raised = s.raised := rfl
@[simp] theorem State.delay_ans (s : State) (n : Word) : (s.delay n).ans = s.ans := rfl
@[simp] theorem State.delay_xHit (s : State) (n : Word) : (s.delay n).xHit = s.xHit := rfl
@[simp] theorem State.delay_xAddr (s : State) (n : Word) : (s.delay n).xAddr = s.xAddr := rfl
@[simp] theorem State.delay_ret (s : State) (n : Word) : (s.delay n).ret = s.ret := rfl
@[simp] theorem State.delay_inputs (s : State) (n : Word) : (s.delay n).inputs = s.inputs := rfl
@[simp] theorem State.delay_draws (s : State) (n : Word) : (s.delay n).draws = s.draws := rfl
@[simp] theorem State.delay_drawCount (s : State) (n : Word) : (s.delay n).drawCount = s.drawCount := rfl
@[simp] theorem State.delay_resOks (s : State) (n : Word) : (s.delay n).resOks = s.resOks := rfl
@[simp] theorem State.delay_resOkCount (s : State) (n : Word) : (s.delay n).resOkCount = s.resOkCount := rfl
@[simp] theorem State.delay_epoch (s : State) (n : Word) : (s.delay n).epoch = s.epoch := rfl

@[simp] theorem State.log_cfg (s : State) (code : Half) (arg : Word) : (s.log code arg).cfg = s.cfg := rfl
@[simp] theorem State.log_ls (s : State) (code : Half) (arg : Word) : (s.log code arg).ls = s.ls := rfl
@[simp] theorem State.log_seq (s : State) (code : Half) (arg : Word) : (s.log code arg).seq = s.seq := rfl
@[simp] theorem State.log_lat (s : State) (code : Half) (arg : Word) : (s.log code arg).lat = s.lat := rfl
@[simp] theorem State.log_res (s : State) (code : Half) (arg : Word) : (s.log code arg).res = s.res := rfl
@[simp] theorem State.log_work (s : State) (code : Half) (arg : Word) : (s.log code arg).work = s.work := rfl
@[simp] theorem State.log_attached (s : State) (code : Half) (arg : Word) : (s.log code arg).attached = s.attached := rfl
@[simp] theorem State.log_registered (s : State) (code : Half) (arg : Word) : (s.log code arg).registered = s.registered := rfl
@[simp] theorem State.log_calFail (s : State) (code : Half) (arg : Word) : (s.log code arg).calFail = s.calFail := rfl
@[simp] theorem State.log_busy (s : State) (code : Half) (arg : Word) : (s.log code arg).busy = s.busy := rfl
@[simp] theorem State.log_fixup (s : State) (code : Half) (arg : Word) : (s.log code arg).fixup = s.fixup := rfl
@[simp] theorem State.log_rstOut (s : State) (code : Half) (arg : Word) : (s.log code arg).rstOut = s.rstOut := rfl
@[simp] theorem State.log_br (s : State) (code : Half) (arg : Word) : (s.log code arg).br = s.br := rfl
@[simp] theorem State.log_ss (s : State) (code : Half) (arg : Word) : (s.log code arg).ss = s.ss := rfl
@[simp] theorem State.log_sc (s : State) (code : Half) (arg : Word) : (s.log code arg).sc = s.sc := rfl
@[simp] theorem State.log_phyLog (s : State) (code : Half) (arg : Word) : (s.log code arg).phyLog = s.phyLog := rfl
@[simp] theorem State.log_plain (s : State) (code : Half) (arg : Word) : (s.log code arg).plain = s.plain := rfl
@[simp] theorem State.log_mem (s : State) (code : Half) (arg : Word) : (s.log code arg).mem = s.mem := rfl
@[simp] theorem State.log_hist (s : State) (code : Half) (arg : Word) : (s.log code arg).hist = s.hist ++ [.log code arg] := rfl
@[simp] theorem State.log_raised (s : State) (code : Half) (arg : Word) : (s.log code arg).raised = s.raised := rfl
@[simp] theorem State.log_ans (s : State) (code : Half) (arg : Word) : (s.log code arg).ans = s.ans := rfl
@[simp] theorem State.log_xHit (s : State) (code : Half) (arg : Word) : (s.log code arg).xHit = s.xHit := rfl
@[simp] theorem State.log_xAddr (s : State) (code : Half) (arg : Word) : (s.log code arg).xAddr = s.xAddr := rfl
@[simp] theorem State.log_ret (s : State) (code : Half) (arg : Word) : (s.log code arg).ret = s.ret := rfl
@[simp] theorem State.log_inputs (s : State) (code : Half) (arg : Word) : (s.log code arg).inputs = s.inputs := rfl
@[simp] theorem State.log_draws (s : State) (code : Half) (arg : Word) : (s.log code arg).draws = s.draws := rfl
@[simp] theorem State.log_drawCount (s : State) (code : Half) (arg : Word) : (s.log code arg).drawCount = s.drawCount := rfl
@[simp] theorem State.log_resOks (s : State) (code : Half) (arg : Word) : (s.log code arg).resOks = s.resOks := rfl
@[simp] theorem State.log_resOkCount (s : State) (code : Half) (arg : Word) : (s.log code arg).resOkCount = s.resOkCount := rfl
@[simp] theorem State.log_epoch (s : State) (code : Half) (arg : Word) : (s.log code arg).epoch = s.epoch := rfl

@[simp] theorem State.register_cfg (s : State) : (s.register).cfg = s.cfg := rfl
@[simp] theorem State.register_ls (s : State) : (s.register).ls = s.ls := rfl
@[simp] theorem State.register_seq (s : State) : (s.register).seq = s.seq := rfl
@[simp] theorem State.register_lat (s : State) : (s.register).lat = s.lat := rfl
@[simp] theorem State.register_res (s : State) : (s.register).res = s.res := rfl
@[simp] theorem State.register_work (s : State) : (s.register).work = s.work := rfl
@[simp] theorem State.register_attached (s : State) : (s.register).attached = s.attached := rfl
@[simp] theorem State.register_registered (s : State) : (s.register).registered = true := rfl
@[simp] theorem State.register_calFail (s : State) : (s.register).calFail = s.calFail := rfl
@[simp] theorem State.register_busy (s : State) : (s.register).busy = s.busy := rfl
@[simp] theorem State.register_fixup (s : State) : (s.register).fixup = s.fixup := rfl
@[simp] theorem State.register_rstOut (s : State) : (s.register).rstOut = s.rstOut := rfl
@[simp] theorem State.register_br (s : State) : (s.register).br = s.br := rfl
@[simp] theorem State.register_ss (s : State) : (s.register).ss = s.ss := rfl
@[simp] theorem State.register_sc (s : State) : (s.register).sc = s.sc := rfl
@[simp] theorem State.register_phyLog (s : State) : (s.register).phyLog = s.phyLog := rfl
@[simp] theorem State.register_plain (s : State) : (s.register).plain = s.plain := rfl
@[simp] theorem State.register_mem (s : State) : (s.register).mem = s.mem := rfl
@[simp] theorem State.register_hist (s : State) : (s.register).hist = s.hist ++ [.register] := rfl
@[simp] theorem State.register_raised (s : State) : (s.register).raised = s.raised := rfl
@[simp] theorem State.register_ans (s : State) : (s.register).ans = s.ans := rfl
@[simp] theorem State.register_xHit (s : State) : (s.register).xHit = s.xHit := rfl
@[simp] theorem State.register_xAddr (s : State) : (s.register).xAddr = s.xAddr := rfl
@[simp] theorem State.register_ret (s : State) : (s.register).ret = s.ret := rfl
@[simp] theorem State.register_inputs (s : State) : (s.register).inputs = s.inputs := rfl
@[simp] theorem State.register_draws (s : State) : (s.register).draws = s.draws := rfl
@[simp] theorem State.register_drawCount (s : State) : (s.register).drawCount = s.drawCount := rfl
@[simp] theorem State.register_resOks (s : State) : (s.register).resOks = s.resOks := rfl
@[simp] theorem State.register_resOkCount (s : State) : (s.register).resOkCount = s.resOkCount := rfl
@[simp] theorem State.register_epoch (s : State) : (s.register).epoch = s.epoch := rfl

@[simp] theorem State.accept_cfg (s : State) (op : BitVec 4) (wdata : Word) (bus devfn : Byte) (off : BitVec 12) : (s.accept op wdata bus devfn off).cfg = s.cfg := rfl
@[simp] theorem State.accept_ls (s : State) (op : BitVec 4) (wdata : Word) (bus devfn : Byte) (off : BitVec 12) : (s.accept op wdata bus devfn off).ls = s.ls := rfl
@[simp] theorem State.accept_seq (s : State) (op : BitVec 4) (wdata : Word) (bus devfn : Byte) (off : BitVec 12) : (s.accept op wdata bus devfn off).seq = s.seq := rfl
@[simp] theorem State.accept_lat (s : State) (op : BitVec 4) (wdata : Word) (bus devfn : Byte) (off : BitVec 12) : (s.accept op wdata bus devfn off).lat = { op := op, bus := bus, devfn := devfn, off := off, wdata := wdata } := rfl
@[simp] theorem State.accept_res (s : State) (op : BitVec 4) (wdata : Word) (bus devfn : Byte) (off : BitVec 12) : (s.accept op wdata bus devfn off).res = s.res := rfl
@[simp] theorem State.accept_work (s : State) (op : BitVec 4) (wdata : Word) (bus devfn : Byte) (off : BitVec 12) : (s.accept op wdata bus devfn off).work = s.work := rfl
@[simp] theorem State.accept_attached (s : State) (op : BitVec 4) (wdata : Word) (bus devfn : Byte) (off : BitVec 12) : (s.accept op wdata bus devfn off).attached = s.attached := rfl
@[simp] theorem State.accept_registered (s : State) (op : BitVec 4) (wdata : Word) (bus devfn : Byte) (off : BitVec 12) : (s.accept op wdata bus devfn off).registered = s.registered := rfl
@[simp] theorem State.accept_calFail (s : State) (op : BitVec 4) (wdata : Word) (bus devfn : Byte) (off : BitVec 12) : (s.accept op wdata bus devfn off).calFail = s.calFail := rfl
@[simp] theorem State.accept_busy (s : State) (op : BitVec 4) (wdata : Word) (bus devfn : Byte) (off : BitVec 12) : (s.accept op wdata bus devfn off).busy = true := rfl
@[simp] theorem State.accept_fixup (s : State) (op : BitVec 4) (wdata : Word) (bus devfn : Byte) (off : BitVec 12) : (s.accept op wdata bus devfn off).fixup = s.fixup := rfl
@[simp] theorem State.accept_rstOut (s : State) (op : BitVec 4) (wdata : Word) (bus devfn : Byte) (off : BitVec 12) : (s.accept op wdata bus devfn off).rstOut = s.rstOut := rfl
@[simp] theorem State.accept_br (s : State) (op : BitVec 4) (wdata : Word) (bus devfn : Byte) (off : BitVec 12) : (s.accept op wdata bus devfn off).br = s.br := rfl
@[simp] theorem State.accept_ss (s : State) (op : BitVec 4) (wdata : Word) (bus devfn : Byte) (off : BitVec 12) : (s.accept op wdata bus devfn off).ss = s.ss := rfl
@[simp] theorem State.accept_sc (s : State) (op : BitVec 4) (wdata : Word) (bus devfn : Byte) (off : BitVec 12) : (s.accept op wdata bus devfn off).sc = s.sc := rfl
@[simp] theorem State.accept_phyLog (s : State) (op : BitVec 4) (wdata : Word) (bus devfn : Byte) (off : BitVec 12) : (s.accept op wdata bus devfn off).phyLog = s.phyLog := rfl
@[simp] theorem State.accept_plain (s : State) (op : BitVec 4) (wdata : Word) (bus devfn : Byte) (off : BitVec 12) : (s.accept op wdata bus devfn off).plain = s.plain := rfl
@[simp] theorem State.accept_mem (s : State) (op : BitVec 4) (wdata : Word) (bus devfn : Byte) (off : BitVec 12) : (s.accept op wdata bus devfn off).mem = s.mem := rfl
@[simp] theorem State.accept_hist (s : State) (op : BitVec 4) (wdata : Word) (bus devfn : Byte) (off : BitVec 12) : (s.accept op wdata bus devfn off).hist = s.hist := rfl
@[simp] theorem State.accept_raised (s : State) (op : BitVec 4) (wdata : Word) (bus devfn : Byte) (off : BitVec 12) : (s.accept op wdata bus devfn off).raised = s.raised := rfl
@[simp] theorem State.accept_ans (s : State) (op : BitVec 4) (wdata : Word) (bus devfn : Byte) (off : BitVec 12) : (s.accept op wdata bus devfn off).ans = s.ans := rfl
@[simp] theorem State.accept_xHit (s : State) (op : BitVec 4) (wdata : Word) (bus devfn : Byte) (off : BitVec 12) : (s.accept op wdata bus devfn off).xHit = s.xHit := rfl
@[simp] theorem State.accept_xAddr (s : State) (op : BitVec 4) (wdata : Word) (bus devfn : Byte) (off : BitVec 12) : (s.accept op wdata bus devfn off).xAddr = s.xAddr := rfl
@[simp] theorem State.accept_ret (s : State) (op : BitVec 4) (wdata : Word) (bus devfn : Byte) (off : BitVec 12) : (s.accept op wdata bus devfn off).ret = s.ret := rfl
@[simp] theorem State.accept_inputs (s : State) (op : BitVec 4) (wdata : Word) (bus devfn : Byte) (off : BitVec 12) : (s.accept op wdata bus devfn off).inputs = s.inputs := rfl
@[simp] theorem State.accept_draws (s : State) (op : BitVec 4) (wdata : Word) (bus devfn : Byte) (off : BitVec 12) : (s.accept op wdata bus devfn off).draws = s.draws := rfl
@[simp] theorem State.accept_drawCount (s : State) (op : BitVec 4) (wdata : Word) (bus devfn : Byte) (off : BitVec 12) : (s.accept op wdata bus devfn off).drawCount = s.drawCount := rfl
@[simp] theorem State.accept_resOks (s : State) (op : BitVec 4) (wdata : Word) (bus devfn : Byte) (off : BitVec 12) : (s.accept op wdata bus devfn off).resOks = s.resOks := rfl
@[simp] theorem State.accept_resOkCount (s : State) (op : BitVec 4) (wdata : Word) (bus devfn : Byte) (off : BitVec 12) : (s.accept op wdata bus devfn off).resOkCount = s.resOkCount := rfl
@[simp] theorem State.accept_epoch (s : State) (op : BitVec 4) (wdata : Word) (bus devfn : Byte) (off : BitVec 12) : (s.accept op wdata bus devfn off).epoch = s.epoch := rfl

@[simp] theorem State.complete_cfg (s : State) (status aux : Byte) (rdata : Word) : (s.complete status aux rdata).cfg = s.cfg := rfl
@[simp] theorem State.complete_ls (s : State) (status aux : Byte) (rdata : Word) : (s.complete status aux rdata).ls = s.ls := rfl
@[simp] theorem State.complete_seq (s : State) (status aux : Byte) (rdata : Word) : (s.complete status aux rdata).seq = s.seq := rfl
@[simp] theorem State.complete_lat (s : State) (status aux : Byte) (rdata : Word) : (s.complete status aux rdata).lat = s.lat := rfl
@[simp] theorem State.complete_res (s : State) (status aux : Byte) (rdata : Word) : (s.complete status aux rdata).res = { status := status, aux := aux, rdata := rdata } := rfl
@[simp] theorem State.complete_work (s : State) (status aux : Byte) (rdata : Word) : (s.complete status aux rdata).work = s.work := rfl
@[simp] theorem State.complete_attached (s : State) (status aux : Byte) (rdata : Word) : (s.complete status aux rdata).attached = s.attached := rfl
@[simp] theorem State.complete_registered (s : State) (status aux : Byte) (rdata : Word) : (s.complete status aux rdata).registered = s.registered := rfl
@[simp] theorem State.complete_calFail (s : State) (status aux : Byte) (rdata : Word) : (s.complete status aux rdata).calFail = s.calFail := rfl
@[simp] theorem State.complete_busy (s : State) (status aux : Byte) (rdata : Word) : (s.complete status aux rdata).busy = false := rfl
@[simp] theorem State.complete_fixup (s : State) (status aux : Byte) (rdata : Word) : (s.complete status aux rdata).fixup = s.fixup := rfl
@[simp] theorem State.complete_rstOut (s : State) (status aux : Byte) (rdata : Word) : (s.complete status aux rdata).rstOut = s.rstOut := rfl
@[simp] theorem State.complete_br (s : State) (status aux : Byte) (rdata : Word) : (s.complete status aux rdata).br = s.br := rfl
@[simp] theorem State.complete_ss (s : State) (status aux : Byte) (rdata : Word) : (s.complete status aux rdata).ss = s.ss := rfl
@[simp] theorem State.complete_sc (s : State) (status aux : Byte) (rdata : Word) : (s.complete status aux rdata).sc = s.sc := rfl
@[simp] theorem State.complete_phyLog (s : State) (status aux : Byte) (rdata : Word) : (s.complete status aux rdata).phyLog = s.phyLog := rfl
@[simp] theorem State.complete_plain (s : State) (status aux : Byte) (rdata : Word) : (s.complete status aux rdata).plain = s.plain := rfl
@[simp] theorem State.complete_mem (s : State) (status aux : Byte) (rdata : Word) : (s.complete status aux rdata).mem = s.mem := rfl
@[simp] theorem State.complete_hist (s : State) (status aux : Byte) (rdata : Word) : (s.complete status aux rdata).hist = s.hist := rfl
@[simp] theorem State.complete_raised (s : State) (status aux : Byte) (rdata : Word) : (s.complete status aux rdata).raised = s.raised := rfl
@[simp] theorem State.complete_ans (s : State) (status aux : Byte) (rdata : Word) : (s.complete status aux rdata).ans = s.ans := rfl
@[simp] theorem State.complete_xHit (s : State) (status aux : Byte) (rdata : Word) : (s.complete status aux rdata).xHit = s.xHit := rfl
@[simp] theorem State.complete_xAddr (s : State) (status aux : Byte) (rdata : Word) : (s.complete status aux rdata).xAddr = s.xAddr := rfl
@[simp] theorem State.complete_ret (s : State) (status aux : Byte) (rdata : Word) : (s.complete status aux rdata).ret = s.ret := rfl
@[simp] theorem State.complete_inputs (s : State) (status aux : Byte) (rdata : Word) : (s.complete status aux rdata).inputs = s.inputs := rfl
@[simp] theorem State.complete_draws (s : State) (status aux : Byte) (rdata : Word) : (s.complete status aux rdata).draws = s.draws := rfl
@[simp] theorem State.complete_drawCount (s : State) (status aux : Byte) (rdata : Word) : (s.complete status aux rdata).drawCount = s.drawCount := rfl
@[simp] theorem State.complete_resOks (s : State) (status aux : Byte) (rdata : Word) : (s.complete status aux rdata).resOks = s.resOks := rfl
@[simp] theorem State.complete_resOkCount (s : State) (status aux : Byte) (rdata : Word) : (s.complete status aux rdata).resOkCount = s.resOkCount := rfl
@[simp] theorem State.complete_epoch (s : State) (status aux : Byte) (rdata : Word) : (s.complete status aux rdata).epoch = s.epoch := rfl

@[simp] theorem State.refuse_cfg (s : State) (c : Condition) (status : Byte) : (s.refuse c status).cfg = s.cfg := rfl
@[simp] theorem State.refuse_ls (s : State) (c : Condition) (status : Byte) : (s.refuse c status).ls = s.ls := rfl
@[simp] theorem State.refuse_seq (s : State) (c : Condition) (status : Byte) : (s.refuse c status).seq = s.seq := rfl
@[simp] theorem State.refuse_lat (s : State) (c : Condition) (status : Byte) : (s.refuse c status).lat = s.lat := rfl
@[simp] theorem State.refuse_res (s : State) (c : Condition) (status : Byte) : (s.refuse c status).res = { status := status, aux := 0, rdata := 0 } := rfl
@[simp] theorem State.refuse_work (s : State) (c : Condition) (status : Byte) : (s.refuse c status).work = s.work := rfl
@[simp] theorem State.refuse_attached (s : State) (c : Condition) (status : Byte) : (s.refuse c status).attached = s.attached := rfl
@[simp] theorem State.refuse_registered (s : State) (c : Condition) (status : Byte) : (s.refuse c status).registered = s.registered := rfl
@[simp] theorem State.refuse_calFail (s : State) (c : Condition) (status : Byte) : (s.refuse c status).calFail = s.calFail := rfl
@[simp] theorem State.refuse_busy (s : State) (c : Condition) (status : Byte) : (s.refuse c status).busy = false := rfl
@[simp] theorem State.refuse_fixup (s : State) (c : Condition) (status : Byte) : (s.refuse c status).fixup = s.fixup := rfl
@[simp] theorem State.refuse_rstOut (s : State) (c : Condition) (status : Byte) : (s.refuse c status).rstOut = s.rstOut := rfl
@[simp] theorem State.refuse_br (s : State) (c : Condition) (status : Byte) : (s.refuse c status).br = s.br := rfl
@[simp] theorem State.refuse_ss (s : State) (c : Condition) (status : Byte) : (s.refuse c status).ss = s.ss := rfl
@[simp] theorem State.refuse_sc (s : State) (c : Condition) (status : Byte) : (s.refuse c status).sc = s.sc := rfl
@[simp] theorem State.refuse_phyLog (s : State) (c : Condition) (status : Byte) : (s.refuse c status).phyLog = s.phyLog := rfl
@[simp] theorem State.refuse_plain (s : State) (c : Condition) (status : Byte) : (s.refuse c status).plain = s.plain := rfl
@[simp] theorem State.refuse_mem (s : State) (c : Condition) (status : Byte) : (s.refuse c status).mem = s.mem := rfl
@[simp] theorem State.refuse_hist (s : State) (c : Condition) (status : Byte) : (s.refuse c status).hist = s.hist := rfl
@[simp] theorem State.refuse_raised (s : State) (c : Condition) (status : Byte) : (s.refuse c status).raised = s.raised ++ [c] := rfl
@[simp] theorem State.refuse_ans (s : State) (c : Condition) (status : Byte) : (s.refuse c status).ans = s.ans := rfl
@[simp] theorem State.refuse_xHit (s : State) (c : Condition) (status : Byte) : (s.refuse c status).xHit = s.xHit := rfl
@[simp] theorem State.refuse_xAddr (s : State) (c : Condition) (status : Byte) : (s.refuse c status).xAddr = s.xAddr := rfl
@[simp] theorem State.refuse_ret (s : State) (c : Condition) (status : Byte) : (s.refuse c status).ret = s.ret := rfl
@[simp] theorem State.refuse_inputs (s : State) (c : Condition) (status : Byte) : (s.refuse c status).inputs = s.inputs := rfl
@[simp] theorem State.refuse_draws (s : State) (c : Condition) (status : Byte) : (s.refuse c status).draws = s.draws := rfl
@[simp] theorem State.refuse_drawCount (s : State) (c : Condition) (status : Byte) : (s.refuse c status).drawCount = s.drawCount := rfl
@[simp] theorem State.refuse_resOks (s : State) (c : Condition) (status : Byte) : (s.refuse c status).resOks = s.resOks := rfl
@[simp] theorem State.refuse_resOkCount (s : State) (c : Condition) (status : Byte) : (s.refuse c status).resOkCount = s.resOkCount := rfl
@[simp] theorem State.refuse_epoch (s : State) (c : Condition) (status : Byte) : (s.refuse c status).epoch = s.epoch := rfl

@[simp] theorem State.setAttached_cfg (s : State) : (s.setAttached).cfg = s.cfg := rfl
@[simp] theorem State.setAttached_ls (s : State) : (s.setAttached).ls = s.ls := rfl
@[simp] theorem State.setAttached_seq (s : State) : (s.setAttached).seq = s.seq := rfl
@[simp] theorem State.setAttached_lat (s : State) : (s.setAttached).lat = s.lat := rfl
@[simp] theorem State.setAttached_res (s : State) : (s.setAttached).res = s.res := rfl
@[simp] theorem State.setAttached_work (s : State) : (s.setAttached).work = s.work := rfl
@[simp] theorem State.setAttached_attached (s : State) : (s.setAttached).attached = true := rfl
@[simp] theorem State.setAttached_registered (s : State) : (s.setAttached).registered = s.registered := rfl
@[simp] theorem State.setAttached_calFail (s : State) : (s.setAttached).calFail = s.calFail := rfl
@[simp] theorem State.setAttached_busy (s : State) : (s.setAttached).busy = s.busy := rfl
@[simp] theorem State.setAttached_fixup (s : State) : (s.setAttached).fixup = s.fixup := rfl
@[simp] theorem State.setAttached_rstOut (s : State) : (s.setAttached).rstOut = s.rstOut := rfl
@[simp] theorem State.setAttached_br (s : State) : (s.setAttached).br = s.br := rfl
@[simp] theorem State.setAttached_ss (s : State) : (s.setAttached).ss = s.ss := rfl
@[simp] theorem State.setAttached_sc (s : State) : (s.setAttached).sc = s.sc := rfl
@[simp] theorem State.setAttached_phyLog (s : State) : (s.setAttached).phyLog = s.phyLog := rfl
@[simp] theorem State.setAttached_plain (s : State) : (s.setAttached).plain = s.plain := rfl
@[simp] theorem State.setAttached_mem (s : State) : (s.setAttached).mem = s.mem := rfl
@[simp] theorem State.setAttached_hist (s : State) : (s.setAttached).hist = s.hist := rfl
@[simp] theorem State.setAttached_raised (s : State) : (s.setAttached).raised = s.raised := rfl
@[simp] theorem State.setAttached_ans (s : State) : (s.setAttached).ans = s.ans := rfl
@[simp] theorem State.setAttached_xHit (s : State) : (s.setAttached).xHit = s.xHit := rfl
@[simp] theorem State.setAttached_xAddr (s : State) : (s.setAttached).xAddr = s.xAddr := rfl
@[simp] theorem State.setAttached_ret (s : State) : (s.setAttached).ret = s.ret := rfl
@[simp] theorem State.setAttached_inputs (s : State) : (s.setAttached).inputs = s.inputs := rfl
@[simp] theorem State.setAttached_draws (s : State) : (s.setAttached).draws = s.draws := rfl
@[simp] theorem State.setAttached_drawCount (s : State) : (s.setAttached).drawCount = s.drawCount := rfl
@[simp] theorem State.setAttached_resOks (s : State) : (s.setAttached).resOks = s.resOks := rfl
@[simp] theorem State.setAttached_resOkCount (s : State) : (s.setAttached).resOkCount = s.resOkCount := rfl
@[simp] theorem State.setAttached_epoch (s : State) : (s.setAttached).epoch = s.epoch := rfl

@[simp] theorem State.setCalFail_cfg (s : State) : (s.setCalFail).cfg = s.cfg := rfl
@[simp] theorem State.setCalFail_ls (s : State) : (s.setCalFail).ls = s.ls := rfl
@[simp] theorem State.setCalFail_seq (s : State) : (s.setCalFail).seq = s.seq := rfl
@[simp] theorem State.setCalFail_lat (s : State) : (s.setCalFail).lat = s.lat := rfl
@[simp] theorem State.setCalFail_res (s : State) : (s.setCalFail).res = s.res := rfl
@[simp] theorem State.setCalFail_work (s : State) : (s.setCalFail).work = s.work := rfl
@[simp] theorem State.setCalFail_attached (s : State) : (s.setCalFail).attached = s.attached := rfl
@[simp] theorem State.setCalFail_registered (s : State) : (s.setCalFail).registered = s.registered := rfl
@[simp] theorem State.setCalFail_calFail (s : State) : (s.setCalFail).calFail = true := rfl
@[simp] theorem State.setCalFail_busy (s : State) : (s.setCalFail).busy = s.busy := rfl
@[simp] theorem State.setCalFail_fixup (s : State) : (s.setCalFail).fixup = s.fixup := rfl
@[simp] theorem State.setCalFail_rstOut (s : State) : (s.setCalFail).rstOut = s.rstOut := rfl
@[simp] theorem State.setCalFail_br (s : State) : (s.setCalFail).br = s.br := rfl
@[simp] theorem State.setCalFail_ss (s : State) : (s.setCalFail).ss = s.ss := rfl
@[simp] theorem State.setCalFail_sc (s : State) : (s.setCalFail).sc = s.sc := rfl
@[simp] theorem State.setCalFail_phyLog (s : State) : (s.setCalFail).phyLog = s.phyLog := rfl
@[simp] theorem State.setCalFail_plain (s : State) : (s.setCalFail).plain = s.plain := rfl
@[simp] theorem State.setCalFail_mem (s : State) : (s.setCalFail).mem = s.mem := rfl
@[simp] theorem State.setCalFail_hist (s : State) : (s.setCalFail).hist = s.hist := rfl
@[simp] theorem State.setCalFail_raised (s : State) : (s.setCalFail).raised = s.raised := rfl
@[simp] theorem State.setCalFail_ans (s : State) : (s.setCalFail).ans = s.ans := rfl
@[simp] theorem State.setCalFail_xHit (s : State) : (s.setCalFail).xHit = s.xHit := rfl
@[simp] theorem State.setCalFail_xAddr (s : State) : (s.setCalFail).xAddr = s.xAddr := rfl
@[simp] theorem State.setCalFail_ret (s : State) : (s.setCalFail).ret = s.ret := rfl
@[simp] theorem State.setCalFail_inputs (s : State) : (s.setCalFail).inputs = s.inputs := rfl
@[simp] theorem State.setCalFail_draws (s : State) : (s.setCalFail).draws = s.draws := rfl
@[simp] theorem State.setCalFail_drawCount (s : State) : (s.setCalFail).drawCount = s.drawCount := rfl
@[simp] theorem State.setCalFail_resOks (s : State) : (s.setCalFail).resOks = s.resOks := rfl
@[simp] theorem State.setCalFail_resOkCount (s : State) : (s.setCalFail).resOkCount = s.resOkCount := rfl
@[simp] theorem State.setCalFail_epoch (s : State) : (s.setCalFail).epoch = s.epoch := rfl

@[simp] theorem State.goto_cfg (s : State) (n : BitVec 6) : (s.goto n).cfg = s.cfg := rfl
@[simp] theorem State.goto_ls (s : State) (n : BitVec 6) : (s.goto n).ls = s.ls := rfl
@[simp] theorem State.goto_seq (s : State) (n : BitVec 6) : (s.goto n).seq = n := rfl
@[simp] theorem State.goto_lat (s : State) (n : BitVec 6) : (s.goto n).lat = s.lat := rfl
@[simp] theorem State.goto_res (s : State) (n : BitVec 6) : (s.goto n).res = s.res := rfl
@[simp] theorem State.goto_work (s : State) (n : BitVec 6) : (s.goto n).work = s.work := rfl
@[simp] theorem State.goto_attached (s : State) (n : BitVec 6) : (s.goto n).attached = s.attached := rfl
@[simp] theorem State.goto_registered (s : State) (n : BitVec 6) : (s.goto n).registered = s.registered := rfl
@[simp] theorem State.goto_calFail (s : State) (n : BitVec 6) : (s.goto n).calFail = s.calFail := rfl
@[simp] theorem State.goto_busy (s : State) (n : BitVec 6) : (s.goto n).busy = s.busy := rfl
@[simp] theorem State.goto_fixup (s : State) (n : BitVec 6) : (s.goto n).fixup = s.fixup := rfl
@[simp] theorem State.goto_rstOut (s : State) (n : BitVec 6) : (s.goto n).rstOut = s.rstOut := rfl
@[simp] theorem State.goto_br (s : State) (n : BitVec 6) : (s.goto n).br = s.br := rfl
@[simp] theorem State.goto_ss (s : State) (n : BitVec 6) : (s.goto n).ss = s.ss := rfl
@[simp] theorem State.goto_sc (s : State) (n : BitVec 6) : (s.goto n).sc = s.sc := rfl
@[simp] theorem State.goto_phyLog (s : State) (n : BitVec 6) : (s.goto n).phyLog = s.phyLog := rfl
@[simp] theorem State.goto_plain (s : State) (n : BitVec 6) : (s.goto n).plain = s.plain := rfl
@[simp] theorem State.goto_mem (s : State) (n : BitVec 6) : (s.goto n).mem = s.mem := rfl
@[simp] theorem State.goto_hist (s : State) (n : BitVec 6) : (s.goto n).hist = s.hist := rfl
@[simp] theorem State.goto_raised (s : State) (n : BitVec 6) : (s.goto n).raised = s.raised := rfl
@[simp] theorem State.goto_ans (s : State) (n : BitVec 6) : (s.goto n).ans = s.ans := rfl
@[simp] theorem State.goto_xHit (s : State) (n : BitVec 6) : (s.goto n).xHit = s.xHit := rfl
@[simp] theorem State.goto_xAddr (s : State) (n : BitVec 6) : (s.goto n).xAddr = s.xAddr := rfl
@[simp] theorem State.goto_ret (s : State) (n : BitVec 6) : (s.goto n).ret = s.ret := rfl
@[simp] theorem State.goto_inputs (s : State) (n : BitVec 6) : (s.goto n).inputs = s.inputs := rfl
@[simp] theorem State.goto_draws (s : State) (n : BitVec 6) : (s.goto n).draws = s.draws := rfl
@[simp] theorem State.goto_drawCount (s : State) (n : BitVec 6) : (s.goto n).drawCount = s.drawCount := rfl
@[simp] theorem State.goto_resOks (s : State) (n : BitVec 6) : (s.goto n).resOks = s.resOks := rfl
@[simp] theorem State.goto_resOkCount (s : State) (n : BitVec 6) : (s.goto n).resOkCount = s.resOkCount := rfl
@[simp] theorem State.goto_epoch (s : State) (n : BitVec 6) : (s.goto n).epoch = s.epoch := rfl

@[simp] theorem State.setLs_cfg (s : State) (l : LinkState) : (s.setLs l).cfg = s.cfg := rfl
@[simp] theorem State.setLs_ls (s : State) (l : LinkState) : (s.setLs l).ls = l := rfl
@[simp] theorem State.setLs_seq (s : State) (l : LinkState) : (s.setLs l).seq = s.seq := rfl
@[simp] theorem State.setLs_lat (s : State) (l : LinkState) : (s.setLs l).lat = s.lat := rfl
@[simp] theorem State.setLs_res (s : State) (l : LinkState) : (s.setLs l).res = s.res := rfl
@[simp] theorem State.setLs_work (s : State) (l : LinkState) : (s.setLs l).work = s.work := rfl
@[simp] theorem State.setLs_attached (s : State) (l : LinkState) : (s.setLs l).attached = s.attached := rfl
@[simp] theorem State.setLs_registered (s : State) (l : LinkState) : (s.setLs l).registered = s.registered := rfl
@[simp] theorem State.setLs_calFail (s : State) (l : LinkState) : (s.setLs l).calFail = s.calFail := rfl
@[simp] theorem State.setLs_busy (s : State) (l : LinkState) : (s.setLs l).busy = s.busy := rfl
@[simp] theorem State.setLs_fixup (s : State) (l : LinkState) : (s.setLs l).fixup = s.fixup := rfl
@[simp] theorem State.setLs_rstOut (s : State) (l : LinkState) : (s.setLs l).rstOut = s.rstOut := rfl
@[simp] theorem State.setLs_br (s : State) (l : LinkState) : (s.setLs l).br = s.br := rfl
@[simp] theorem State.setLs_ss (s : State) (l : LinkState) : (s.setLs l).ss = s.ss := rfl
@[simp] theorem State.setLs_sc (s : State) (l : LinkState) : (s.setLs l).sc = s.sc := rfl
@[simp] theorem State.setLs_phyLog (s : State) (l : LinkState) : (s.setLs l).phyLog = s.phyLog := rfl
@[simp] theorem State.setLs_plain (s : State) (l : LinkState) : (s.setLs l).plain = s.plain := rfl
@[simp] theorem State.setLs_mem (s : State) (l : LinkState) : (s.setLs l).mem = s.mem := rfl
@[simp] theorem State.setLs_hist (s : State) (l : LinkState) : (s.setLs l).hist = s.hist := rfl
@[simp] theorem State.setLs_raised (s : State) (l : LinkState) : (s.setLs l).raised = s.raised := rfl
@[simp] theorem State.setLs_ans (s : State) (l : LinkState) : (s.setLs l).ans = s.ans := rfl
@[simp] theorem State.setLs_xHit (s : State) (l : LinkState) : (s.setLs l).xHit = s.xHit := rfl
@[simp] theorem State.setLs_xAddr (s : State) (l : LinkState) : (s.setLs l).xAddr = s.xAddr := rfl
@[simp] theorem State.setLs_ret (s : State) (l : LinkState) : (s.setLs l).ret = s.ret := rfl
@[simp] theorem State.setLs_inputs (s : State) (l : LinkState) : (s.setLs l).inputs = s.inputs := rfl
@[simp] theorem State.setLs_draws (s : State) (l : LinkState) : (s.setLs l).draws = s.draws := rfl
@[simp] theorem State.setLs_drawCount (s : State) (l : LinkState) : (s.setLs l).drawCount = s.drawCount := rfl
@[simp] theorem State.setLs_resOks (s : State) (l : LinkState) : (s.setLs l).resOks = s.resOks := rfl
@[simp] theorem State.setLs_resOkCount (s : State) (l : LinkState) : (s.setLs l).resOkCount = s.resOkCount := rfl
@[simp] theorem State.setLs_epoch (s : State) (l : LinkState) : (s.setLs l).epoch = s.epoch := rfl

@[simp] theorem State.sample_cfg (s : State) : (s.sample).cfg = s.cfg := rfl
@[simp] theorem State.sample_ls (s : State) : (s.sample).ls = s.ls := rfl
@[simp] theorem State.sample_seq (s : State) : (s.sample).seq = s.seq := rfl
@[simp] theorem State.sample_lat (s : State) : (s.sample).lat = s.lat := rfl
@[simp] theorem State.sample_res (s : State) : (s.sample).res = s.res := rfl
@[simp] theorem State.sample_work (s : State) : (s.sample).work = { s.work with v := s.ans } := rfl
@[simp] theorem State.sample_attached (s : State) : (s.sample).attached = s.attached := rfl
@[simp] theorem State.sample_registered (s : State) : (s.sample).registered = s.registered := rfl
@[simp] theorem State.sample_calFail (s : State) : (s.sample).calFail = s.calFail := rfl
@[simp] theorem State.sample_busy (s : State) : (s.sample).busy = s.busy := rfl
@[simp] theorem State.sample_fixup (s : State) : (s.sample).fixup = s.fixup := rfl
@[simp] theorem State.sample_rstOut (s : State) : (s.sample).rstOut = s.rstOut := rfl
@[simp] theorem State.sample_br (s : State) : (s.sample).br = s.br := rfl
@[simp] theorem State.sample_ss (s : State) : (s.sample).ss = s.ss := rfl
@[simp] theorem State.sample_sc (s : State) : (s.sample).sc = s.sc := rfl
@[simp] theorem State.sample_phyLog (s : State) : (s.sample).phyLog = s.phyLog := rfl
@[simp] theorem State.sample_plain (s : State) : (s.sample).plain = s.plain := rfl
@[simp] theorem State.sample_mem (s : State) : (s.sample).mem = s.mem := rfl
@[simp] theorem State.sample_hist (s : State) : (s.sample).hist = s.hist := rfl
@[simp] theorem State.sample_raised (s : State) : (s.sample).raised = s.raised := rfl
@[simp] theorem State.sample_ans (s : State) : (s.sample).ans = s.ans := rfl
@[simp] theorem State.sample_xHit (s : State) : (s.sample).xHit = s.xHit := rfl
@[simp] theorem State.sample_xAddr (s : State) : (s.sample).xAddr = s.xAddr := rfl
@[simp] theorem State.sample_ret (s : State) : (s.sample).ret = s.ret := rfl
@[simp] theorem State.sample_inputs (s : State) : (s.sample).inputs = s.inputs := rfl
@[simp] theorem State.sample_draws (s : State) : (s.sample).draws = s.draws := rfl
@[simp] theorem State.sample_drawCount (s : State) : (s.sample).drawCount = s.drawCount := rfl
@[simp] theorem State.sample_resOks (s : State) : (s.sample).resOks = s.resOks := rfl
@[simp] theorem State.sample_resOkCount (s : State) : (s.sample).resOkCount = s.resOkCount := rfl
@[simp] theorem State.sample_epoch (s : State) : (s.sample).epoch = s.epoch := rfl

@[simp] theorem State.halt_cfg (s : State) (l : LinkState) (o : BitVec 2) : (s.halt l o).cfg = s.cfg := rfl
@[simp] theorem State.halt_ls (s : State) (l : LinkState) (o : BitVec 2) : (s.halt l o).ls = l := rfl
@[simp] theorem State.halt_seq (s : State) (l : LinkState) (o : BitVec 2) : (s.halt l o).seq = 0 := rfl
@[simp] theorem State.halt_lat (s : State) (l : LinkState) (o : BitVec 2) : (s.halt l o).lat = s.lat := rfl
@[simp] theorem State.halt_res (s : State) (l : LinkState) (o : BitVec 2) : (s.halt l o).res = { status := statusOk, aux := attachAux s.calFail o, rdata := 0 } := rfl
@[simp] theorem State.halt_work (s : State) (l : LinkState) (o : BitVec 2) : (s.halt l o).work = { s.work with outcome := o } := rfl
@[simp] theorem State.halt_attached (s : State) (l : LinkState) (o : BitVec 2) : (s.halt l o).attached = s.attached := rfl
@[simp] theorem State.halt_registered (s : State) (l : LinkState) (o : BitVec 2) : (s.halt l o).registered = s.registered := rfl
@[simp] theorem State.halt_calFail (s : State) (l : LinkState) (o : BitVec 2) : (s.halt l o).calFail = s.calFail := rfl
@[simp] theorem State.halt_busy (s : State) (l : LinkState) (o : BitVec 2) : (s.halt l o).busy = false := rfl
@[simp] theorem State.halt_fixup (s : State) (l : LinkState) (o : BitVec 2) : (s.halt l o).fixup = s.fixup := rfl
@[simp] theorem State.halt_rstOut (s : State) (l : LinkState) (o : BitVec 2) : (s.halt l o).rstOut = s.rstOut := rfl
@[simp] theorem State.halt_br (s : State) (l : LinkState) (o : BitVec 2) : (s.halt l o).br = s.br := rfl
@[simp] theorem State.halt_ss (s : State) (l : LinkState) (o : BitVec 2) : (s.halt l o).ss = s.ss := rfl
@[simp] theorem State.halt_sc (s : State) (l : LinkState) (o : BitVec 2) : (s.halt l o).sc = s.sc := rfl
@[simp] theorem State.halt_phyLog (s : State) (l : LinkState) (o : BitVec 2) : (s.halt l o).phyLog = s.phyLog := rfl
@[simp] theorem State.halt_plain (s : State) (l : LinkState) (o : BitVec 2) : (s.halt l o).plain = s.plain := rfl
@[simp] theorem State.halt_mem (s : State) (l : LinkState) (o : BitVec 2) : (s.halt l o).mem = s.mem := rfl
@[simp] theorem State.halt_hist (s : State) (l : LinkState) (o : BitVec 2) : (s.halt l o).hist = s.hist := rfl
@[simp] theorem State.halt_raised (s : State) (l : LinkState) (o : BitVec 2) : (s.halt l o).raised = s.raised := rfl
@[simp] theorem State.halt_ans (s : State) (l : LinkState) (o : BitVec 2) : (s.halt l o).ans = s.ans := rfl
@[simp] theorem State.halt_xHit (s : State) (l : LinkState) (o : BitVec 2) : (s.halt l o).xHit = s.xHit := rfl
@[simp] theorem State.halt_xAddr (s : State) (l : LinkState) (o : BitVec 2) : (s.halt l o).xAddr = s.xAddr := rfl
@[simp] theorem State.halt_ret (s : State) (l : LinkState) (o : BitVec 2) : (s.halt l o).ret = s.ret := rfl
@[simp] theorem State.halt_inputs (s : State) (l : LinkState) (o : BitVec 2) : (s.halt l o).inputs = s.inputs := rfl
@[simp] theorem State.halt_draws (s : State) (l : LinkState) (o : BitVec 2) : (s.halt l o).draws = s.draws := rfl
@[simp] theorem State.halt_drawCount (s : State) (l : LinkState) (o : BitVec 2) : (s.halt l o).drawCount = s.drawCount := rfl
@[simp] theorem State.halt_resOks (s : State) (l : LinkState) (o : BitVec 2) : (s.halt l o).resOks = s.resOks := rfl
@[simp] theorem State.halt_resOkCount (s : State) (l : LinkState) (o : BitVec 2) : (s.halt l o).resOkCount = s.resOkCount := rfl
@[simp] theorem State.halt_epoch (s : State) (l : LinkState) (o : BitVec 2) : (s.halt l o).epoch = s.epoch := rfl

@[simp] theorem State.poll_cfg (s : State) : (s.poll).cfg = s.cfg := rfl
@[simp] theorem State.poll_ls (s : State) : (s.poll).ls = s.ls := rfl
@[simp] theorem State.poll_seq (s : State) : (s.poll).seq = s.seq := rfl
@[simp] theorem State.poll_lat (s : State) : (s.poll).lat = s.lat := rfl
@[simp] theorem State.poll_res (s : State) : (s.poll).res = s.res := rfl
@[simp] theorem State.poll_attached (s : State) : (s.poll).attached = s.attached := rfl
@[simp] theorem State.poll_registered (s : State) : (s.poll).registered = s.registered := rfl
@[simp] theorem State.poll_calFail (s : State) : (s.poll).calFail = s.calFail := rfl
@[simp] theorem State.poll_busy (s : State) : (s.poll).busy = s.busy := rfl
@[simp] theorem State.poll_fixup (s : State) : (s.poll).fixup = s.fixup := rfl
@[simp] theorem State.poll_rstOut (s : State) : (s.poll).rstOut = s.rstOut := rfl
@[simp] theorem State.poll_br (s : State) : (s.poll).br = s.br := rfl
@[simp] theorem State.poll_ss (s : State) : (s.poll).ss = s.ss := rfl
@[simp] theorem State.poll_sc (s : State) : (s.poll).sc = s.sc := rfl
@[simp] theorem State.poll_phyLog (s : State) : (s.poll).phyLog = s.phyLog := rfl
@[simp] theorem State.poll_plain (s : State) : (s.poll).plain = s.plain := rfl
@[simp] theorem State.poll_mem (s : State) : (s.poll).mem = s.mem := rfl
@[simp] theorem State.poll_raised (s : State) : (s.poll).raised = s.raised := rfl
@[simp] theorem State.poll_xHit (s : State) : (s.poll).xHit = s.xHit := rfl
@[simp] theorem State.poll_xAddr (s : State) : (s.poll).xAddr = s.xAddr := rfl
@[simp] theorem State.poll_ret (s : State) : (s.poll).ret = s.ret := rfl
@[simp] theorem State.poll_inputs (s : State) : (s.poll).inputs = s.inputs := rfl
@[simp] theorem State.poll_resOks (s : State) : (s.poll).resOks = s.resOks := rfl
@[simp] theorem State.poll_resOkCount (s : State) : (s.poll).resOkCount = s.resOkCount := rfl
@[simp] theorem State.poll_epoch (s : State) : (s.poll).epoch = s.epoch := rfl

@[simp] theorem State.calTimeout_cfg (s : State) (a : Byte) (phase : Nat) : (s.calTimeout a phase).cfg = s.cfg := rfl
@[simp] theorem State.calTimeout_ls (s : State) (a : Byte) (phase : Nat) : (s.calTimeout a phase).ls = s.ls := rfl
@[simp] theorem State.calTimeout_seq (s : State) (a : Byte) (phase : Nat) : (s.calTimeout a phase).seq = s.seq := rfl
@[simp] theorem State.calTimeout_lat (s : State) (a : Byte) (phase : Nat) : (s.calTimeout a phase).lat = s.lat := rfl
@[simp] theorem State.calTimeout_res (s : State) (a : Byte) (phase : Nat) : (s.calTimeout a phase).res = s.res := rfl
@[simp] theorem State.calTimeout_work (s : State) (a : Byte) (phase : Nat) : (s.calTimeout a phase).work = s.work := rfl
@[simp] theorem State.calTimeout_attached (s : State) (a : Byte) (phase : Nat) : (s.calTimeout a phase).attached = s.attached := rfl
@[simp] theorem State.calTimeout_registered (s : State) (a : Byte) (phase : Nat) : (s.calTimeout a phase).registered = s.registered := rfl
@[simp] theorem State.calTimeout_calFail (s : State) (a : Byte) (phase : Nat) : (s.calTimeout a phase).calFail = true := rfl
@[simp] theorem State.calTimeout_busy (s : State) (a : Byte) (phase : Nat) : (s.calTimeout a phase).busy = s.busy := rfl
@[simp] theorem State.calTimeout_fixup (s : State) (a : Byte) (phase : Nat) : (s.calTimeout a phase).fixup = s.fixup := rfl
@[simp] theorem State.calTimeout_rstOut (s : State) (a : Byte) (phase : Nat) : (s.calTimeout a phase).rstOut = s.rstOut := rfl
@[simp] theorem State.calTimeout_br (s : State) (a : Byte) (phase : Nat) : (s.calTimeout a phase).br = s.br := rfl
@[simp] theorem State.calTimeout_ss (s : State) (a : Byte) (phase : Nat) : (s.calTimeout a phase).ss = s.ss := rfl
@[simp] theorem State.calTimeout_sc (s : State) (a : Byte) (phase : Nat) : (s.calTimeout a phase).sc = s.sc := rfl
@[simp] theorem State.calTimeout_phyLog (s : State) (a : Byte) (phase : Nat) : (s.calTimeout a phase).phyLog = s.phyLog := rfl
@[simp] theorem State.calTimeout_plain (s : State) (a : Byte) (phase : Nat) : (s.calTimeout a phase).plain = s.plain := rfl
@[simp] theorem State.calTimeout_mem (s : State) (a : Byte) (phase : Nat) : (s.calTimeout a phase).mem = s.mem := rfl
@[simp] theorem State.calTimeout_hist (s : State) (a : Byte) (phase : Nat) : (s.calTimeout a phase).hist = s.hist ++ [.log 1 ((a.zeroExtend 32 <<< 8) ||| BitVec.ofNat 32 phase)] := rfl
@[simp] theorem State.calTimeout_raised (s : State) (a : Byte) (phase : Nat) : (s.calTimeout a phase).raised = s.raised ++ [.calTimeout a phase] := rfl
@[simp] theorem State.calTimeout_ans (s : State) (a : Byte) (phase : Nat) : (s.calTimeout a phase).ans = s.ans := rfl
@[simp] theorem State.calTimeout_xHit (s : State) (a : Byte) (phase : Nat) : (s.calTimeout a phase).xHit = s.xHit := rfl
@[simp] theorem State.calTimeout_xAddr (s : State) (a : Byte) (phase : Nat) : (s.calTimeout a phase).xAddr = s.xAddr := rfl
@[simp] theorem State.calTimeout_ret (s : State) (a : Byte) (phase : Nat) : (s.calTimeout a phase).ret = .fail := rfl
@[simp] theorem State.calTimeout_inputs (s : State) (a : Byte) (phase : Nat) : (s.calTimeout a phase).inputs = s.inputs := rfl
@[simp] theorem State.calTimeout_draws (s : State) (a : Byte) (phase : Nat) : (s.calTimeout a phase).draws = s.draws := rfl
@[simp] theorem State.calTimeout_drawCount (s : State) (a : Byte) (phase : Nat) : (s.calTimeout a phase).drawCount = s.drawCount := rfl
@[simp] theorem State.calTimeout_resOks (s : State) (a : Byte) (phase : Nat) : (s.calTimeout a phase).resOks = s.resOks := rfl
@[simp] theorem State.calTimeout_resOkCount (s : State) (a : Byte) (phase : Nat) : (s.calTimeout a phase).resOkCount = s.resOkCount := rfl
@[simp] theorem State.calTimeout_epoch (s : State) (a : Byte) (phase : Nat) : (s.calTimeout a phase).epoch = s.epoch := rfl

@[simp] theorem State.setIrq_cfg (s : State) (irq : Byte) : (s.setIrq irq).cfg = s.cfg := rfl
@[simp] theorem State.setIrq_ls (s : State) (irq : Byte) : (s.setIrq irq).ls = s.ls := rfl
@[simp] theorem State.setIrq_seq (s : State) (irq : Byte) : (s.setIrq irq).seq = s.seq := rfl
@[simp] theorem State.setIrq_lat (s : State) (irq : Byte) : (s.setIrq irq).lat = s.lat := rfl
@[simp] theorem State.setIrq_res (s : State) (irq : Byte) : (s.setIrq irq).res = s.res := rfl
@[simp] theorem State.setIrq_work (s : State) (irq : Byte) : (s.setIrq irq).work = { s.work with irq := irq } := rfl
@[simp] theorem State.setIrq_attached (s : State) (irq : Byte) : (s.setIrq irq).attached = s.attached := rfl
@[simp] theorem State.setIrq_registered (s : State) (irq : Byte) : (s.setIrq irq).registered = s.registered := rfl
@[simp] theorem State.setIrq_calFail (s : State) (irq : Byte) : (s.setIrq irq).calFail = s.calFail := rfl
@[simp] theorem State.setIrq_busy (s : State) (irq : Byte) : (s.setIrq irq).busy = s.busy := rfl
@[simp] theorem State.setIrq_fixup (s : State) (irq : Byte) : (s.setIrq irq).fixup = s.fixup := rfl
@[simp] theorem State.setIrq_rstOut (s : State) (irq : Byte) : (s.setIrq irq).rstOut = s.rstOut := rfl
@[simp] theorem State.setIrq_br (s : State) (irq : Byte) : (s.setIrq irq).br = s.br := rfl
@[simp] theorem State.setIrq_ss (s : State) (irq : Byte) : (s.setIrq irq).ss = s.ss := rfl
@[simp] theorem State.setIrq_sc (s : State) (irq : Byte) : (s.setIrq irq).sc = s.sc := rfl
@[simp] theorem State.setIrq_phyLog (s : State) (irq : Byte) : (s.setIrq irq).phyLog = s.phyLog := rfl
@[simp] theorem State.setIrq_plain (s : State) (irq : Byte) : (s.setIrq irq).plain = s.plain := rfl
@[simp] theorem State.setIrq_mem (s : State) (irq : Byte) : (s.setIrq irq).mem = s.mem := rfl
@[simp] theorem State.setIrq_hist (s : State) (irq : Byte) : (s.setIrq irq).hist = s.hist := rfl
@[simp] theorem State.setIrq_raised (s : State) (irq : Byte) : (s.setIrq irq).raised = s.raised := rfl
@[simp] theorem State.setIrq_ans (s : State) (irq : Byte) : (s.setIrq irq).ans = s.ans := rfl
@[simp] theorem State.setIrq_xHit (s : State) (irq : Byte) : (s.setIrq irq).xHit = s.xHit := rfl
@[simp] theorem State.setIrq_xAddr (s : State) (irq : Byte) : (s.setIrq irq).xAddr = s.xAddr := rfl
@[simp] theorem State.setIrq_ret (s : State) (irq : Byte) : (s.setIrq irq).ret = s.ret := rfl
@[simp] theorem State.setIrq_inputs (s : State) (irq : Byte) : (s.setIrq irq).inputs = s.inputs := rfl
@[simp] theorem State.setIrq_draws (s : State) (irq : Byte) : (s.setIrq irq).draws = s.draws := rfl
@[simp] theorem State.setIrq_drawCount (s : State) (irq : Byte) : (s.setIrq irq).drawCount = s.drawCount := rfl
@[simp] theorem State.setIrq_resOks (s : State) (irq : Byte) : (s.setIrq irq).resOks = s.resOks := rfl
@[simp] theorem State.setIrq_resOkCount (s : State) (irq : Byte) : (s.setIrq irq).resOkCount = s.resOkCount := rfl
@[simp] theorem State.setIrq_epoch (s : State) (irq : Byte) : (s.setIrq irq).epoch = s.epoch := rfl

@[simp] theorem State.openInbound_cfg (s : State) : (s.openInbound).cfg = s.cfg := rfl
@[simp] theorem State.openInbound_ls (s : State) : (s.openInbound).ls = s.ls := rfl
@[simp] theorem State.openInbound_seq (s : State) : (s.openInbound).seq = s.seq := rfl
@[simp] theorem State.openInbound_lat (s : State) : (s.openInbound).lat = s.lat := rfl
@[simp] theorem State.openInbound_res (s : State) : (s.openInbound).res = s.res := rfl
@[simp] theorem State.openInbound_work (s : State) : (s.openInbound).work = s.work := rfl
@[simp] theorem State.openInbound_attached (s : State) : (s.openInbound).attached = s.attached := rfl
@[simp] theorem State.openInbound_registered (s : State) : (s.openInbound).registered = s.registered := rfl
@[simp] theorem State.openInbound_calFail (s : State) : (s.openInbound).calFail = s.calFail := rfl
@[simp] theorem State.openInbound_busy (s : State) : (s.openInbound).busy = s.busy := rfl
@[simp] theorem State.openInbound_fixup (s : State) : (s.openInbound).fixup = s.fixup := rfl
@[simp] theorem State.openInbound_rstOut (s : State) : (s.openInbound).rstOut = s.rstOut := rfl
@[simp] theorem State.openInbound_br (s : State) : (s.openInbound).br = s.br := rfl
@[simp] theorem State.openInbound_ss (s : State) : (s.openInbound).ss = s.ss.write s.cfg s.cfg.offBar0setup (s.cfg.bar0Mask2g ||| s.cfg.bar0En) := rfl
@[simp] theorem State.openInbound_sc (s : State) : (s.openInbound).sc = s.sc := rfl
@[simp] theorem State.openInbound_plain (s : State) : (s.openInbound).plain = s.plain := rfl
@[simp] theorem State.openInbound_mem (s : State) : (s.openInbound).mem = s.mem := rfl
@[simp] theorem State.openInbound_hist (s : State) : (s.openInbound).hist = s.hist ++ [.ssWr s.cfg.offBar0setup (s.cfg.bar0Mask2g ||| s.cfg.bar0En)] := rfl
@[simp] theorem State.openInbound_raised (s : State) : (s.openInbound).raised = s.raised := rfl
@[simp] theorem State.openInbound_ans (s : State) : (s.openInbound).ans = s.ans := rfl
@[simp] theorem State.openInbound_xHit (s : State) : (s.openInbound).xHit = s.xHit := rfl
@[simp] theorem State.openInbound_xAddr (s : State) : (s.openInbound).xAddr = s.xAddr := rfl
@[simp] theorem State.openInbound_ret (s : State) : (s.openInbound).ret = s.ret := rfl
@[simp] theorem State.openInbound_inputs (s : State) : (s.openInbound).inputs = s.inputs := rfl
@[simp] theorem State.openInbound_draws (s : State) : (s.openInbound).draws = s.draws := rfl
@[simp] theorem State.openInbound_drawCount (s : State) : (s.openInbound).drawCount = s.drawCount := rfl
@[simp] theorem State.openInbound_resOks (s : State) : (s.openInbound).resOks = s.resOks := rfl
@[simp] theorem State.openInbound_resOkCount (s : State) : (s.openInbound).resOkCount = s.resOkCount := rfl
@[simp] theorem State.openInbound_epoch (s : State) : (s.openInbound).epoch = s.epoch := rfl

@[simp] theorem State.logUnexpected_cfg (s : State) (bus : Byte) (slot : BitVec 5) : (s.logUnexpected bus slot).cfg = s.cfg := rfl
@[simp] theorem State.logUnexpected_ls (s : State) (bus : Byte) (slot : BitVec 5) : (s.logUnexpected bus slot).ls = s.ls := rfl
@[simp] theorem State.logUnexpected_seq (s : State) (bus : Byte) (slot : BitVec 5) : (s.logUnexpected bus slot).seq = s.seq := rfl
@[simp] theorem State.logUnexpected_lat (s : State) (bus : Byte) (slot : BitVec 5) : (s.logUnexpected bus slot).lat = s.lat := rfl
@[simp] theorem State.logUnexpected_res (s : State) (bus : Byte) (slot : BitVec 5) : (s.logUnexpected bus slot).res = s.res := rfl
@[simp] theorem State.logUnexpected_work (s : State) (bus : Byte) (slot : BitVec 5) : (s.logUnexpected bus slot).work = s.work := rfl
@[simp] theorem State.logUnexpected_attached (s : State) (bus : Byte) (slot : BitVec 5) : (s.logUnexpected bus slot).attached = s.attached := rfl
@[simp] theorem State.logUnexpected_registered (s : State) (bus : Byte) (slot : BitVec 5) : (s.logUnexpected bus slot).registered = s.registered := rfl
@[simp] theorem State.logUnexpected_calFail (s : State) (bus : Byte) (slot : BitVec 5) : (s.logUnexpected bus slot).calFail = s.calFail := rfl
@[simp] theorem State.logUnexpected_busy (s : State) (bus : Byte) (slot : BitVec 5) : (s.logUnexpected bus slot).busy = s.busy := rfl
@[simp] theorem State.logUnexpected_fixup (s : State) (bus : Byte) (slot : BitVec 5) : (s.logUnexpected bus slot).fixup = s.fixup := rfl
@[simp] theorem State.logUnexpected_rstOut (s : State) (bus : Byte) (slot : BitVec 5) : (s.logUnexpected bus slot).rstOut = s.rstOut := rfl
@[simp] theorem State.logUnexpected_br (s : State) (bus : Byte) (slot : BitVec 5) : (s.logUnexpected bus slot).br = s.br := rfl
@[simp] theorem State.logUnexpected_ss (s : State) (bus : Byte) (slot : BitVec 5) : (s.logUnexpected bus slot).ss = s.ss := rfl
@[simp] theorem State.logUnexpected_sc (s : State) (bus : Byte) (slot : BitVec 5) : (s.logUnexpected bus slot).sc = s.sc := rfl
@[simp] theorem State.logUnexpected_phyLog (s : State) (bus : Byte) (slot : BitVec 5) : (s.logUnexpected bus slot).phyLog = s.phyLog := rfl
@[simp] theorem State.logUnexpected_plain (s : State) (bus : Byte) (slot : BitVec 5) : (s.logUnexpected bus slot).plain = s.plain := rfl
@[simp] theorem State.logUnexpected_mem (s : State) (bus : Byte) (slot : BitVec 5) : (s.logUnexpected bus slot).mem = s.mem := rfl
@[simp] theorem State.logUnexpected_hist (s : State) (bus : Byte) (slot : BitVec 5) : (s.logUnexpected bus slot).hist = s.hist ++ [.log 3 ((bus.zeroExtend 32 <<< 8) ||| slot.zeroExtend 32)] := rfl
@[simp] theorem State.logUnexpected_raised (s : State) (bus : Byte) (slot : BitVec 5) : (s.logUnexpected bus slot).raised = s.raised ++ [.unexpectedTopology bus slot] := rfl
@[simp] theorem State.logUnexpected_ans (s : State) (bus : Byte) (slot : BitVec 5) : (s.logUnexpected bus slot).ans = s.ans := rfl
@[simp] theorem State.logUnexpected_xHit (s : State) (bus : Byte) (slot : BitVec 5) : (s.logUnexpected bus slot).xHit = s.xHit := rfl
@[simp] theorem State.logUnexpected_xAddr (s : State) (bus : Byte) (slot : BitVec 5) : (s.logUnexpected bus slot).xAddr = s.xAddr := rfl
@[simp] theorem State.logUnexpected_ret (s : State) (bus : Byte) (slot : BitVec 5) : (s.logUnexpected bus slot).ret = s.ret := rfl
@[simp] theorem State.logUnexpected_inputs (s : State) (bus : Byte) (slot : BitVec 5) : (s.logUnexpected bus slot).inputs = s.inputs := rfl
@[simp] theorem State.logUnexpected_draws (s : State) (bus : Byte) (slot : BitVec 5) : (s.logUnexpected bus slot).draws = s.draws := rfl
@[simp] theorem State.logUnexpected_drawCount (s : State) (bus : Byte) (slot : BitVec 5) : (s.logUnexpected bus slot).drawCount = s.drawCount := rfl
@[simp] theorem State.logUnexpected_resOks (s : State) (bus : Byte) (slot : BitVec 5) : (s.logUnexpected bus slot).resOks = s.resOks := rfl
@[simp] theorem State.logUnexpected_resOkCount (s : State) (bus : Byte) (slot : BitVec 5) : (s.logUnexpected bus slot).resOkCount = s.resOkCount := rfl
@[simp] theorem State.logUnexpected_epoch (s : State) (bus : Byte) (slot : BitVec 5) : (s.logUnexpected bus slot).epoch = s.epoch := rfl

@[simp] theorem State.xAnswer_cfg (s : State) (hit : Bool) (addr : Word) : (s.xAnswer hit addr).cfg = s.cfg := rfl
@[simp] theorem State.xAnswer_ls (s : State) (hit : Bool) (addr : Word) : (s.xAnswer hit addr).ls = s.ls := rfl
@[simp] theorem State.xAnswer_seq (s : State) (hit : Bool) (addr : Word) : (s.xAnswer hit addr).seq = s.seq := rfl
@[simp] theorem State.xAnswer_lat (s : State) (hit : Bool) (addr : Word) : (s.xAnswer hit addr).lat = s.lat := rfl
@[simp] theorem State.xAnswer_res (s : State) (hit : Bool) (addr : Word) : (s.xAnswer hit addr).res = s.res := rfl
@[simp] theorem State.xAnswer_work (s : State) (hit : Bool) (addr : Word) : (s.xAnswer hit addr).work = s.work := rfl
@[simp] theorem State.xAnswer_attached (s : State) (hit : Bool) (addr : Word) : (s.xAnswer hit addr).attached = s.attached := rfl
@[simp] theorem State.xAnswer_registered (s : State) (hit : Bool) (addr : Word) : (s.xAnswer hit addr).registered = s.registered := rfl
@[simp] theorem State.xAnswer_calFail (s : State) (hit : Bool) (addr : Word) : (s.xAnswer hit addr).calFail = s.calFail := rfl
@[simp] theorem State.xAnswer_busy (s : State) (hit : Bool) (addr : Word) : (s.xAnswer hit addr).busy = s.busy := rfl
@[simp] theorem State.xAnswer_fixup (s : State) (hit : Bool) (addr : Word) : (s.xAnswer hit addr).fixup = s.fixup := rfl
@[simp] theorem State.xAnswer_rstOut (s : State) (hit : Bool) (addr : Word) : (s.xAnswer hit addr).rstOut = s.rstOut := rfl
@[simp] theorem State.xAnswer_br (s : State) (hit : Bool) (addr : Word) : (s.xAnswer hit addr).br = s.br := rfl
@[simp] theorem State.xAnswer_ss (s : State) (hit : Bool) (addr : Word) : (s.xAnswer hit addr).ss = s.ss := rfl
@[simp] theorem State.xAnswer_sc (s : State) (hit : Bool) (addr : Word) : (s.xAnswer hit addr).sc = s.sc := rfl
@[simp] theorem State.xAnswer_phyLog (s : State) (hit : Bool) (addr : Word) : (s.xAnswer hit addr).phyLog = s.phyLog := rfl
@[simp] theorem State.xAnswer_plain (s : State) (hit : Bool) (addr : Word) : (s.xAnswer hit addr).plain = s.plain := rfl
@[simp] theorem State.xAnswer_mem (s : State) (hit : Bool) (addr : Word) : (s.xAnswer hit addr).mem = s.mem := rfl
@[simp] theorem State.xAnswer_hist (s : State) (hit : Bool) (addr : Word) : (s.xAnswer hit addr).hist = s.hist := rfl
@[simp] theorem State.xAnswer_raised (s : State) (hit : Bool) (addr : Word) : (s.xAnswer hit addr).raised = s.raised := rfl
@[simp] theorem State.xAnswer_ans (s : State) (hit : Bool) (addr : Word) : (s.xAnswer hit addr).ans = s.ans := rfl
@[simp] theorem State.xAnswer_xHit (s : State) (hit : Bool) (addr : Word) : (s.xAnswer hit addr).xHit = hit := rfl
@[simp] theorem State.xAnswer_xAddr (s : State) (hit : Bool) (addr : Word) : (s.xAnswer hit addr).xAddr = if hit then addr else 0 := rfl
@[simp] theorem State.xAnswer_ret (s : State) (hit : Bool) (addr : Word) : (s.xAnswer hit addr).ret = s.ret := rfl
@[simp] theorem State.xAnswer_inputs (s : State) (hit : Bool) (addr : Word) : (s.xAnswer hit addr).inputs = s.inputs := rfl
@[simp] theorem State.xAnswer_draws (s : State) (hit : Bool) (addr : Word) : (s.xAnswer hit addr).draws = s.draws := rfl
@[simp] theorem State.xAnswer_drawCount (s : State) (hit : Bool) (addr : Word) : (s.xAnswer hit addr).drawCount = s.drawCount := rfl
@[simp] theorem State.xAnswer_resOks (s : State) (hit : Bool) (addr : Word) : (s.xAnswer hit addr).resOks = s.resOks := rfl
@[simp] theorem State.xAnswer_resOkCount (s : State) (hit : Bool) (addr : Word) : (s.xAnswer hit addr).resOkCount = s.resOkCount := rfl
@[simp] theorem State.xAnswer_epoch (s : State) (hit : Bool) (addr : Word) : (s.xAnswer hit addr).epoch = s.epoch := rfl

@[simp] theorem State.cfgSelect_cfg (s : State) (bus devfn : Byte) (off : BitVec 12) : (s.cfgSelect bus devfn off).cfg = s.cfg := rfl
@[simp] theorem State.cfgSelect_ls (s : State) (bus devfn : Byte) (off : BitVec 12) : (s.cfgSelect bus devfn off).ls = s.ls := rfl
@[simp] theorem State.cfgSelect_seq (s : State) (bus devfn : Byte) (off : BitVec 12) : (s.cfgSelect bus devfn off).seq = s.seq := rfl
@[simp] theorem State.cfgSelect_lat (s : State) (bus devfn : Byte) (off : BitVec 12) : (s.cfgSelect bus devfn off).lat = s.lat := rfl
@[simp] theorem State.cfgSelect_res (s : State) (bus devfn : Byte) (off : BitVec 12) : (s.cfgSelect bus devfn off).res = s.res := rfl
@[simp] theorem State.cfgSelect_work (s : State) (bus devfn : Byte) (off : BitVec 12) : (s.cfgSelect bus devfn off).work = { s.work with tok := token s.cfg bus devfn off } := rfl
@[simp] theorem State.cfgSelect_attached (s : State) (bus devfn : Byte) (off : BitVec 12) : (s.cfgSelect bus devfn off).attached = s.attached := rfl
@[simp] theorem State.cfgSelect_registered (s : State) (bus devfn : Byte) (off : BitVec 12) : (s.cfgSelect bus devfn off).registered = s.registered := rfl
@[simp] theorem State.cfgSelect_calFail (s : State) (bus devfn : Byte) (off : BitVec 12) : (s.cfgSelect bus devfn off).calFail = s.calFail := rfl
@[simp] theorem State.cfgSelect_busy (s : State) (bus devfn : Byte) (off : BitVec 12) : (s.cfgSelect bus devfn off).busy = s.busy := rfl
@[simp] theorem State.cfgSelect_fixup (s : State) (bus devfn : Byte) (off : BitVec 12) : (s.cfgSelect bus devfn off).fixup = s.fixup := rfl
@[simp] theorem State.cfgSelect_rstOut (s : State) (bus devfn : Byte) (off : BitVec 12) : (s.cfgSelect bus devfn off).rstOut = s.rstOut := rfl
@[simp] theorem State.cfgSelect_br (s : State) (bus devfn : Byte) (off : BitVec 12) : (s.cfgSelect bus devfn off).br = s.br.write s.cfg s.cfg.offCfgaddr (token s.cfg bus devfn off) := rfl
@[simp] theorem State.cfgSelect_ss (s : State) (bus devfn : Byte) (off : BitVec 12) : (s.cfgSelect bus devfn off).ss = s.ss := rfl
@[simp] theorem State.cfgSelect_sc (s : State) (bus devfn : Byte) (off : BitVec 12) : (s.cfgSelect bus devfn off).sc = s.sc := rfl
@[simp] theorem State.cfgSelect_phyLog (s : State) (bus devfn : Byte) (off : BitVec 12) : (s.cfgSelect bus devfn off).phyLog = s.phyLog := rfl
@[simp] theorem State.cfgSelect_plain (s : State) (bus devfn : Byte) (off : BitVec 12) : (s.cfgSelect bus devfn off).plain = s.plain := rfl
@[simp] theorem State.cfgSelect_hist (s : State) (bus devfn : Byte) (off : BitVec 12) : (s.cfgSelect bus devfn off).hist = s.hist ++ [.brWr s.cfg.offCfgaddr (token s.cfg bus devfn off)] := rfl
@[simp] theorem State.cfgSelect_raised (s : State) (bus devfn : Byte) (off : BitVec 12) : (s.cfgSelect bus devfn off).raised = s.raised := rfl
@[simp] theorem State.cfgSelect_ans (s : State) (bus devfn : Byte) (off : BitVec 12) : (s.cfgSelect bus devfn off).ans = s.ans := rfl
@[simp] theorem State.cfgSelect_xHit (s : State) (bus devfn : Byte) (off : BitVec 12) : (s.cfgSelect bus devfn off).xHit = s.xHit := rfl
@[simp] theorem State.cfgSelect_xAddr (s : State) (bus devfn : Byte) (off : BitVec 12) : (s.cfgSelect bus devfn off).xAddr = s.xAddr := rfl
@[simp] theorem State.cfgSelect_ret (s : State) (bus devfn : Byte) (off : BitVec 12) : (s.cfgSelect bus devfn off).ret = s.ret := rfl
@[simp] theorem State.cfgSelect_inputs (s : State) (bus devfn : Byte) (off : BitVec 12) : (s.cfgSelect bus devfn off).inputs = s.inputs := rfl
@[simp] theorem State.cfgSelect_draws (s : State) (bus devfn : Byte) (off : BitVec 12) : (s.cfgSelect bus devfn off).draws = s.draws := rfl
@[simp] theorem State.cfgSelect_drawCount (s : State) (bus devfn : Byte) (off : BitVec 12) : (s.cfgSelect bus devfn off).drawCount = s.drawCount := rfl
@[simp] theorem State.cfgSelect_resOks (s : State) (bus devfn : Byte) (off : BitVec 12) : (s.cfgSelect bus devfn off).resOks = s.resOks := rfl
@[simp] theorem State.cfgSelect_resOkCount (s : State) (bus devfn : Byte) (off : BitVec 12) : (s.cfgSelect bus devfn off).resOkCount = s.resOkCount := rfl
@[simp] theorem State.cfgSelect_epoch (s : State) (bus devfn : Byte) (off : BitVec 12) : (s.cfgSelect bus devfn off).epoch = s.epoch := rfl

@[simp] theorem State.cfgFetch_cfg (s : State) (bus devfn : Byte) (off : BitVec 12) : (s.cfgFetch bus devfn off).cfg = s.cfg := rfl
@[simp] theorem State.cfgFetch_ls (s : State) (bus devfn : Byte) (off : BitVec 12) : (s.cfgFetch bus devfn off).ls = s.ls := rfl
@[simp] theorem State.cfgFetch_seq (s : State) (bus devfn : Byte) (off : BitVec 12) : (s.cfgFetch bus devfn off).seq = s.seq := rfl
@[simp] theorem State.cfgFetch_lat (s : State) (bus devfn : Byte) (off : BitVec 12) : (s.cfgFetch bus devfn off).lat = s.lat := rfl
@[simp] theorem State.cfgFetch_res (s : State) (bus devfn : Byte) (off : BitVec 12) : (s.cfgFetch bus devfn off).res = s.res := rfl
@[simp] theorem State.cfgFetch_attached (s : State) (bus devfn : Byte) (off : BitVec 12) : (s.cfgFetch bus devfn off).attached = s.attached := rfl
@[simp] theorem State.cfgFetch_registered (s : State) (bus devfn : Byte) (off : BitVec 12) : (s.cfgFetch bus devfn off).registered = s.registered := rfl
@[simp] theorem State.cfgFetch_calFail (s : State) (bus devfn : Byte) (off : BitVec 12) : (s.cfgFetch bus devfn off).calFail = s.calFail := rfl
@[simp] theorem State.cfgFetch_busy (s : State) (bus devfn : Byte) (off : BitVec 12) : (s.cfgFetch bus devfn off).busy = s.busy := rfl
@[simp] theorem State.cfgFetch_fixup (s : State) (bus devfn : Byte) (off : BitVec 12) : (s.cfgFetch bus devfn off).fixup = s.fixup := rfl
@[simp] theorem State.cfgFetch_rstOut (s : State) (bus devfn : Byte) (off : BitVec 12) : (s.cfgFetch bus devfn off).rstOut = s.rstOut := rfl
@[simp] theorem State.cfgFetch_br (s : State) (bus devfn : Byte) (off : BitVec 12) : (s.cfgFetch bus devfn off).br = s.br.write s.cfg s.cfg.offCfgaddr (token s.cfg bus devfn off) := rfl
@[simp] theorem State.cfgFetch_ss (s : State) (bus devfn : Byte) (off : BitVec 12) : (s.cfgFetch bus devfn off).ss = s.ss := rfl
@[simp] theorem State.cfgFetch_sc (s : State) (bus devfn : Byte) (off : BitVec 12) : (s.cfgFetch bus devfn off).sc = s.sc := rfl
@[simp] theorem State.cfgFetch_phyLog (s : State) (bus devfn : Byte) (off : BitVec 12) : (s.cfgFetch bus devfn off).phyLog = s.phyLog := rfl
@[simp] theorem State.cfgFetch_plain (s : State) (bus devfn : Byte) (off : BitVec 12) : (s.cfgFetch bus devfn off).plain = s.plain := rfl
@[simp] theorem State.cfgFetch_raised (s : State) (bus devfn : Byte) (off : BitVec 12) : (s.cfgFetch bus devfn off).raised = s.raised := rfl
@[simp] theorem State.cfgFetch_xHit (s : State) (bus devfn : Byte) (off : BitVec 12) : (s.cfgFetch bus devfn off).xHit = s.xHit := rfl
@[simp] theorem State.cfgFetch_xAddr (s : State) (bus devfn : Byte) (off : BitVec 12) : (s.cfgFetch bus devfn off).xAddr = s.xAddr := rfl
@[simp] theorem State.cfgFetch_ret (s : State) (bus devfn : Byte) (off : BitVec 12) : (s.cfgFetch bus devfn off).ret = s.ret := rfl
@[simp] theorem State.cfgFetch_inputs (s : State) (bus devfn : Byte) (off : BitVec 12) : (s.cfgFetch bus devfn off).inputs = s.inputs := rfl
@[simp] theorem State.cfgFetch_resOks (s : State) (bus devfn : Byte) (off : BitVec 12) : (s.cfgFetch bus devfn off).resOks = s.resOks := rfl
@[simp] theorem State.cfgFetch_resOkCount (s : State) (bus devfn : Byte) (off : BitVec 12) : (s.cfgFetch bus devfn off).resOkCount = s.resOkCount := rfl
@[simp] theorem State.cfgFetch_epoch (s : State) (bus devfn : Byte) (off : BitVec 12) : (s.cfgFetch bus devfn off).epoch = s.epoch := rfl

@[simp] theorem State.cfgMerge_cfg (s : State) (w : Width) (off : BitVec 12) (v : Word) : (s.cfgMerge w off v).cfg = s.cfg := rfl
@[simp] theorem State.cfgMerge_ls (s : State) (w : Width) (off : BitVec 12) (v : Word) : (s.cfgMerge w off v).ls = s.ls := rfl
@[simp] theorem State.cfgMerge_seq (s : State) (w : Width) (off : BitVec 12) (v : Word) : (s.cfgMerge w off v).seq = s.seq := rfl
@[simp] theorem State.cfgMerge_lat (s : State) (w : Width) (off : BitVec 12) (v : Word) : (s.cfgMerge w off v).lat = s.lat := rfl
@[simp] theorem State.cfgMerge_res (s : State) (w : Width) (off : BitVec 12) (v : Word) : (s.cfgMerge w off v).res = s.res := rfl
@[simp] theorem State.cfgMerge_work (s : State) (w : Width) (off : BitVec 12) (v : Word) : (s.cfgMerge w off v).work = { s.work with sh := laneShift off, lm := laneMaskAt off w, dw := laneMerge s.work.dw off w v } := rfl
@[simp] theorem State.cfgMerge_attached (s : State) (w : Width) (off : BitVec 12) (v : Word) : (s.cfgMerge w off v).attached = s.attached := rfl
@[simp] theorem State.cfgMerge_registered (s : State) (w : Width) (off : BitVec 12) (v : Word) : (s.cfgMerge w off v).registered = s.registered := rfl
@[simp] theorem State.cfgMerge_calFail (s : State) (w : Width) (off : BitVec 12) (v : Word) : (s.cfgMerge w off v).calFail = s.calFail := rfl
@[simp] theorem State.cfgMerge_busy (s : State) (w : Width) (off : BitVec 12) (v : Word) : (s.cfgMerge w off v).busy = s.busy := rfl
@[simp] theorem State.cfgMerge_fixup (s : State) (w : Width) (off : BitVec 12) (v : Word) : (s.cfgMerge w off v).fixup = s.fixup := rfl
@[simp] theorem State.cfgMerge_rstOut (s : State) (w : Width) (off : BitVec 12) (v : Word) : (s.cfgMerge w off v).rstOut = s.rstOut := rfl
@[simp] theorem State.cfgMerge_br (s : State) (w : Width) (off : BitVec 12) (v : Word) : (s.cfgMerge w off v).br = s.br := rfl
@[simp] theorem State.cfgMerge_ss (s : State) (w : Width) (off : BitVec 12) (v : Word) : (s.cfgMerge w off v).ss = s.ss := rfl
@[simp] theorem State.cfgMerge_sc (s : State) (w : Width) (off : BitVec 12) (v : Word) : (s.cfgMerge w off v).sc = s.sc := rfl
@[simp] theorem State.cfgMerge_phyLog (s : State) (w : Width) (off : BitVec 12) (v : Word) : (s.cfgMerge w off v).phyLog = s.phyLog := rfl
@[simp] theorem State.cfgMerge_plain (s : State) (w : Width) (off : BitVec 12) (v : Word) : (s.cfgMerge w off v).plain = s.plain := rfl
@[simp] theorem State.cfgMerge_mem (s : State) (w : Width) (off : BitVec 12) (v : Word) : (s.cfgMerge w off v).mem = s.mem := rfl
@[simp] theorem State.cfgMerge_hist (s : State) (w : Width) (off : BitVec 12) (v : Word) : (s.cfgMerge w off v).hist = s.hist := rfl
@[simp] theorem State.cfgMerge_raised (s : State) (w : Width) (off : BitVec 12) (v : Word) : (s.cfgMerge w off v).raised = s.raised := rfl
@[simp] theorem State.cfgMerge_ans (s : State) (w : Width) (off : BitVec 12) (v : Word) : (s.cfgMerge w off v).ans = s.ans := rfl
@[simp] theorem State.cfgMerge_xHit (s : State) (w : Width) (off : BitVec 12) (v : Word) : (s.cfgMerge w off v).xHit = s.xHit := rfl
@[simp] theorem State.cfgMerge_xAddr (s : State) (w : Width) (off : BitVec 12) (v : Word) : (s.cfgMerge w off v).xAddr = s.xAddr := rfl
@[simp] theorem State.cfgMerge_ret (s : State) (w : Width) (off : BitVec 12) (v : Word) : (s.cfgMerge w off v).ret = s.ret := rfl
@[simp] theorem State.cfgMerge_inputs (s : State) (w : Width) (off : BitVec 12) (v : Word) : (s.cfgMerge w off v).inputs = s.inputs := rfl
@[simp] theorem State.cfgMerge_draws (s : State) (w : Width) (off : BitVec 12) (v : Word) : (s.cfgMerge w off v).draws = s.draws := rfl
@[simp] theorem State.cfgMerge_drawCount (s : State) (w : Width) (off : BitVec 12) (v : Word) : (s.cfgMerge w off v).drawCount = s.drawCount := rfl
@[simp] theorem State.cfgMerge_resOks (s : State) (w : Width) (off : BitVec 12) (v : Word) : (s.cfgMerge w off v).resOks = s.resOks := rfl
@[simp] theorem State.cfgMerge_resOkCount (s : State) (w : Width) (off : BitVec 12) (v : Word) : (s.cfgMerge w off v).resOkCount = s.resOkCount := rfl
@[simp] theorem State.cfgMerge_epoch (s : State) (w : Width) (off : BitVec 12) (v : Word) : (s.cfgMerge w off v).epoch = s.epoch := rfl

theorem State.unlisted_eq (s : State) : s.unlisted = Config.csByte s.epoch := rfl

/-- A control word starts the one request it packs (R52, R158). -/
theorem State.phyStarts_write (s : State) {v : Word} (h : phyIsWrite s.cfg v = true) : s.phyStarts v = [phyRequest s.cfg v] := by
  rw [State.phyStarts, if_pos h]

/-- A word for PHYCFG starts at most one request (R66; log 17). -/
theorem State.phyStarts_length (s : State) (v : Word) : (s.phyStarts v).length ≤ 1 := by
  unfold State.phyStarts
  split
  · exact Nat.le_refl 1
  · cases Config.phyOther s.epoch s.hist.length v <;> simp

end Sys2Proof.Machine
end

