-- ==== Sys2Proof/Laws/Frames.lean ====
section
/-! SUPPORT. What each composite operation leaves alone: one lemma an operation, field by field, so that no proof unfolds one to read a field it
does not touch. -/

namespace Sys2Proof.Machine

@[simp] theorem pollLoop_frame (n : Nat) (s : State) :
    (pollLoop n s).cfg = s.cfg ∧ (pollLoop n s).ls = s.ls ∧ (pollLoop n s).seq = s.seq ∧ (pollLoop n s).lat = s.lat ∧
    (pollLoop n s).res = s.res ∧ (pollLoop n s).attached = s.attached ∧ (pollLoop n s).registered = s.registered ∧
    (pollLoop n s).calFail = s.calFail ∧ (pollLoop n s).busy = s.busy ∧ (pollLoop n s).fixup = s.fixup ∧ (pollLoop n s).rstOut = s.rstOut ∧
    (pollLoop n s).br = s.br ∧ (pollLoop n s).ss = s.ss ∧ (pollLoop n s).sc = s.sc ∧ (pollLoop n s).phyLog = s.phyLog ∧
    (pollLoop n s).plain = s.plain ∧ (pollLoop n s).mem = s.mem ∧ (pollLoop n s).raised = s.raised ∧ (pollLoop n s).xHit = s.xHit ∧
    (pollLoop n s).xAddr = s.xAddr ∧ (pollLoop n s).inputs = s.inputs ∧ (pollLoop n s).resOks = s.resOks ∧
    (pollLoop n s).resOkCount = s.resOkCount ∧ (pollLoop n s).epoch = s.epoch := by
  induction n generalizing s with
  | zero => unfold pollLoop; split <;> simp
  | succ n ih => unfold pollLoop; split <;> simp [ih]

@[simp] theorem State.waitPhyIdle_frame (s : State) :
    (s.waitPhyIdle).cfg = s.cfg ∧ (s.waitPhyIdle).ls = s.ls ∧ (s.waitPhyIdle).seq = s.seq ∧ (s.waitPhyIdle).lat = s.lat ∧
    (s.waitPhyIdle).res = s.res ∧ (s.waitPhyIdle).attached = s.attached ∧ (s.waitPhyIdle).registered = s.registered ∧
    (s.waitPhyIdle).calFail = s.calFail ∧ (s.waitPhyIdle).busy = s.busy ∧ (s.waitPhyIdle).fixup = s.fixup ∧ (s.waitPhyIdle).rstOut = s.rstOut ∧
    (s.waitPhyIdle).br = s.br ∧ (s.waitPhyIdle).ss = s.ss ∧ (s.waitPhyIdle).sc = s.sc ∧ (s.waitPhyIdle).phyLog = s.phyLog ∧
    (s.waitPhyIdle).plain = s.plain ∧ (s.waitPhyIdle).mem = s.mem ∧ (s.waitPhyIdle).raised = s.raised ∧ (s.waitPhyIdle).xHit = s.xHit ∧
    (s.waitPhyIdle).xAddr = s.xAddr ∧ (s.waitPhyIdle).inputs = s.inputs ∧ (s.waitPhyIdle).resOks = s.resOks ∧
    (s.waitPhyIdle).resOkCount = s.resOkCount ∧ (s.waitPhyIdle).epoch = s.epoch := by
  simp [State.waitPhyIdle]

@[simp] theorem State.phyWrite_frame (s : State) (a d : Byte) :
    (s.phyWrite a d).cfg = s.cfg ∧ (s.phyWrite a d).ls = s.ls ∧ (s.phyWrite a d).seq = s.seq ∧ (s.phyWrite a d).lat = s.lat ∧
    (s.phyWrite a d).res = s.res ∧ (s.phyWrite a d).work = s.work ∧ (s.phyWrite a d).attached = s.attached ∧
    (s.phyWrite a d).registered = s.registered ∧ (s.phyWrite a d).calFail = s.calFail ∧ (s.phyWrite a d).busy = s.busy ∧
    (s.phyWrite a d).fixup = s.fixup ∧ (s.phyWrite a d).rstOut = s.rstOut ∧ (s.phyWrite a d).br = s.br ∧ (s.phyWrite a d).sc = s.sc ∧
    (s.phyWrite a d).plain = s.plain ∧ (s.phyWrite a d).mem = s.mem ∧ (s.phyWrite a d).raised = s.raised ∧ (s.phyWrite a d).ans = s.ans ∧
    (s.phyWrite a d).xHit = s.xHit ∧ (s.phyWrite a d).xAddr = s.xAddr ∧ (s.phyWrite a d).ret = s.ret ∧ (s.phyWrite a d).inputs = s.inputs ∧
    (s.phyWrite a d).draws = s.draws ∧ (s.phyWrite a d).drawCount = s.drawCount ∧ (s.phyWrite a d).resOks = s.resOks ∧
    (s.phyWrite a d).resOkCount = s.resOkCount ∧ (s.phyWrite a d).epoch = s.epoch := by
  simp [State.phyWrite]

@[simp] theorem State.calFinish_frame (s : State) (a d : Byte) :
    (s.calFinish a d).cfg = s.cfg ∧ (s.calFinish a d).ls = s.ls ∧ (s.calFinish a d).seq = s.seq ∧ (s.calFinish a d).lat = s.lat ∧
    (s.calFinish a d).res = s.res ∧ (s.calFinish a d).attached = s.attached ∧ (s.calFinish a d).registered = s.registered ∧
    (s.calFinish a d).busy = s.busy ∧ (s.calFinish a d).fixup = s.fixup ∧ (s.calFinish a d).rstOut = s.rstOut ∧ (s.calFinish a d).br = s.br ∧
    (s.calFinish a d).sc = s.sc ∧ (s.calFinish a d).plain = s.plain ∧ (s.calFinish a d).mem = s.mem ∧ (s.calFinish a d).xHit = s.xHit ∧
    (s.calFinish a d).xAddr = s.xAddr ∧ (s.calFinish a d).inputs = s.inputs ∧ (s.calFinish a d).resOks = s.resOks ∧
    (s.calFinish a d).resOkCount = s.resOkCount ∧ (s.calFinish a d).epoch = s.epoch := by
  unfold State.calFinish; dsimp only; split <;> simp

@[simp] theorem State.calibrate_frame (s : State) (a d : Byte) :
    (s.calibrate a d).cfg = s.cfg ∧ (s.calibrate a d).ls = s.ls ∧ (s.calibrate a d).seq = s.seq ∧ (s.calibrate a d).lat = s.lat ∧
    (s.calibrate a d).res = s.res ∧ (s.calibrate a d).attached = s.attached ∧ (s.calibrate a d).registered = s.registered ∧
    (s.calibrate a d).busy = s.busy ∧ (s.calibrate a d).fixup = s.fixup ∧ (s.calibrate a d).rstOut = s.rstOut ∧ (s.calibrate a d).br = s.br ∧
    (s.calibrate a d).sc = s.sc ∧ (s.calibrate a d).plain = s.plain ∧ (s.calibrate a d).mem = s.mem ∧ (s.calibrate a d).xHit = s.xHit ∧
    (s.calibrate a d).xAddr = s.xAddr ∧ (s.calibrate a d).inputs = s.inputs ∧ (s.calibrate a d).resOks = s.resOks ∧
    (s.calibrate a d).resOkCount = s.resOkCount ∧ (s.calibrate a d).epoch = s.epoch := by
  unfold State.calibrate; dsimp only; split <;> simp

@[simp] theorem State.calSeq_frame (s : State) :
    (s.calSeq).cfg = s.cfg ∧ (s.calSeq).ls = s.ls ∧ (s.calSeq).seq = s.seq ∧ (s.calSeq).lat = s.lat ∧ (s.calSeq).res = s.res ∧
    (s.calSeq).attached = s.attached ∧ (s.calSeq).registered = s.registered ∧ (s.calSeq).busy = s.busy ∧ (s.calSeq).fixup = s.fixup ∧
    (s.calSeq).rstOut = s.rstOut ∧ (s.calSeq).br = s.br ∧ (s.calSeq).sc = s.sc ∧ (s.calSeq).plain = s.plain ∧ (s.calSeq).mem = s.mem ∧
    (s.calSeq).xHit = s.xHit ∧ (s.calSeq).xAddr = s.xAddr ∧ (s.calSeq).inputs = s.inputs ∧ (s.calSeq).resOks = s.resOks ∧
    (s.calSeq).resOkCount = s.resOkCount ∧ (s.calSeq).epoch = s.epoch := by
  simp [State.calSeq]

@[simp] theorem State.afterDraws_frame (s : State) (n : Nat) :
    (s.afterDraws n).cfg = s.cfg ∧ (s.afterDraws n).ls = s.ls ∧ (s.afterDraws n).seq = s.seq ∧ (s.afterDraws n).lat = s.lat ∧
    (s.afterDraws n).res = s.res ∧ (s.afterDraws n).work = s.work ∧ (s.afterDraws n).attached = s.attached ∧
    (s.afterDraws n).registered = s.registered ∧ (s.afterDraws n).calFail = s.calFail ∧ (s.afterDraws n).busy = s.busy ∧
    (s.afterDraws n).fixup = s.fixup ∧ (s.afterDraws n).rstOut = s.rstOut ∧ (s.afterDraws n).br = s.br ∧ (s.afterDraws n).ss = s.ss ∧
    (s.afterDraws n).sc = s.sc ∧ (s.afterDraws n).phyLog = s.phyLog ∧ (s.afterDraws n).plain = s.plain ∧ (s.afterDraws n).mem = s.mem ∧
    (s.afterDraws n).hist = s.hist ∧ (s.afterDraws n).raised = s.raised ∧ (s.afterDraws n).ans = s.ans ∧ (s.afterDraws n).xHit = s.xHit ∧
    (s.afterDraws n).xAddr = s.xAddr ∧ (s.afterDraws n).ret = s.ret ∧ (s.afterDraws n).inputs = s.inputs ∧ (s.afterDraws n).resOks = s.resOks ∧
    (s.afterDraws n).resOkCount = s.resOkCount ∧ (s.afterDraws n).epoch = s.epoch ∧
    (s.afterDraws n).draws = s.draws.drop n ∧ (s.afterDraws n).drawCount = s.drawCount + n := by
  simp [State.afterDraws]

@[simp] theorem State.cfgFetch_frame (s : State) (bus devfn : Byte) (off : BitVec 12) :
    (s.cfgFetch bus devfn off).cfg = s.cfg ∧ (s.cfgFetch bus devfn off).ls = s.ls ∧ (s.cfgFetch bus devfn off).seq = s.seq ∧
    (s.cfgFetch bus devfn off).lat = s.lat ∧ (s.cfgFetch bus devfn off).res = s.res ∧ (s.cfgFetch bus devfn off).attached = s.attached ∧
    (s.cfgFetch bus devfn off).registered = s.registered ∧ (s.cfgFetch bus devfn off).calFail = s.calFail ∧
    (s.cfgFetch bus devfn off).busy = s.busy ∧ (s.cfgFetch bus devfn off).fixup = s.fixup ∧ (s.cfgFetch bus devfn off).rstOut = s.rstOut ∧
    (s.cfgFetch bus devfn off).ss = s.ss ∧ (s.cfgFetch bus devfn off).sc = s.sc ∧ (s.cfgFetch bus devfn off).phyLog = s.phyLog ∧
    (s.cfgFetch bus devfn off).plain = s.plain ∧ (s.cfgFetch bus devfn off).raised = s.raised ∧ (s.cfgFetch bus devfn off).xHit = s.xHit ∧
    (s.cfgFetch bus devfn off).xAddr = s.xAddr ∧ (s.cfgFetch bus devfn off).ret = s.ret ∧ (s.cfgFetch bus devfn off).inputs = s.inputs ∧
    (s.cfgFetch bus devfn off).resOks = s.resOks ∧ (s.cfgFetch bus devfn off).resOkCount = s.resOkCount ∧
    (s.cfgFetch bus devfn off).epoch = s.epoch := by
  simp [State.cfgFetch, State.cfgSelect]

@[simp] theorem State.cfgRead_frame (s : State) (w : Width) (bus devfn : Byte) (off : BitVec 12) :
    (s.cfgRead w bus devfn off).cfg = s.cfg ∧ (s.cfgRead w bus devfn off).ls = s.ls ∧ (s.cfgRead w bus devfn off).seq = s.seq ∧
    (s.cfgRead w bus devfn off).lat = s.lat ∧ (s.cfgRead w bus devfn off).res = s.res ∧ (s.cfgRead w bus devfn off).attached = s.attached ∧
    (s.cfgRead w bus devfn off).registered = s.registered ∧ (s.cfgRead w bus devfn off).calFail = s.calFail ∧
    (s.cfgRead w bus devfn off).busy = s.busy ∧ (s.cfgRead w bus devfn off).fixup = s.fixup ∧ (s.cfgRead w bus devfn off).rstOut = s.rstOut ∧
    (s.cfgRead w bus devfn off).ss = s.ss ∧ (s.cfgRead w bus devfn off).sc = s.sc ∧ (s.cfgRead w bus devfn off).phyLog = s.phyLog ∧
    (s.cfgRead w bus devfn off).plain = s.plain ∧ (s.cfgRead w bus devfn off).raised = s.raised ∧ (s.cfgRead w bus devfn off).xHit = s.xHit ∧
    (s.cfgRead w bus devfn off).xAddr = s.xAddr ∧ (s.cfgRead w bus devfn off).ret = s.ret ∧ (s.cfgRead w bus devfn off).inputs = s.inputs ∧
    (s.cfgRead w bus devfn off).resOks = s.resOks ∧ (s.cfgRead w bus devfn off).resOkCount = s.resOkCount ∧
    (s.cfgRead w bus devfn off).epoch = s.epoch := by
  cases w <;> simp [State.cfgRead]

@[simp] theorem State.cfgWrite_frame (s : State) (w : Width) (bus devfn : Byte) (off : BitVec 12) (v : Word) :
    (s.cfgWrite w bus devfn off v).cfg = s.cfg ∧ (s.cfgWrite w bus devfn off v).ls = s.ls ∧ (s.cfgWrite w bus devfn off v).seq = s.seq ∧
    (s.cfgWrite w bus devfn off v).lat = s.lat ∧ (s.cfgWrite w bus devfn off v).res = s.res ∧
    (s.cfgWrite w bus devfn off v).attached = s.attached ∧ (s.cfgWrite w bus devfn off v).registered = s.registered ∧
    (s.cfgWrite w bus devfn off v).calFail = s.calFail ∧ (s.cfgWrite w bus devfn off v).busy = s.busy ∧
    (s.cfgWrite w bus devfn off v).fixup = s.fixup ∧ (s.cfgWrite w bus devfn off v).rstOut = s.rstOut ∧
    (s.cfgWrite w bus devfn off v).ss = s.ss ∧ (s.cfgWrite w bus devfn off v).sc = s.sc ∧ (s.cfgWrite w bus devfn off v).phyLog = s.phyLog ∧
    (s.cfgWrite w bus devfn off v).plain = s.plain ∧ (s.cfgWrite w bus devfn off v).raised = s.raised ∧
    (s.cfgWrite w bus devfn off v).xHit = s.xHit ∧ (s.cfgWrite w bus devfn off v).xAddr = s.xAddr ∧
    (s.cfgWrite w bus devfn off v).ret = s.ret ∧ (s.cfgWrite w bus devfn off v).inputs = s.inputs ∧
    (s.cfgWrite w bus devfn off v).resOks = s.resOks ∧ (s.cfgWrite w bus devfn off v).resOkCount = s.resOkCount ∧
    (s.cfgWrite w bus devfn off v).epoch = s.epoch := by
  cases w <;> simp [State.cfgWrite, State.cfgSelect, State.cfgMerge]

@[simp] theorem State.readCommand_frame (s : State) (bus devfn : Byte) :
    (s.readCommand bus devfn).cfg = s.cfg ∧ (s.readCommand bus devfn).ls = s.ls ∧ (s.readCommand bus devfn).seq = s.seq ∧
    (s.readCommand bus devfn).lat = s.lat ∧ (s.readCommand bus devfn).res = s.res ∧ (s.readCommand bus devfn).attached = s.attached ∧
    (s.readCommand bus devfn).registered = s.registered ∧ (s.readCommand bus devfn).calFail = s.calFail ∧
    (s.readCommand bus devfn).busy = s.busy ∧ (s.readCommand bus devfn).fixup = s.fixup ∧ (s.readCommand bus devfn).rstOut = s.rstOut ∧
    (s.readCommand bus devfn).ss = s.ss ∧ (s.readCommand bus devfn).sc = s.sc ∧ (s.readCommand bus devfn).phyLog = s.phyLog ∧
    (s.readCommand bus devfn).plain = s.plain ∧ (s.readCommand bus devfn).raised = s.raised ∧ (s.readCommand bus devfn).xHit = s.xHit ∧
    (s.readCommand bus devfn).xAddr = s.xAddr ∧ (s.readCommand bus devfn).ret = s.ret ∧ (s.readCommand bus devfn).inputs = s.inputs ∧
    (s.readCommand bus devfn).resOks = s.resOks ∧ (s.readCommand bus devfn).resOkCount = s.resOkCount ∧
    (s.readCommand bus devfn).epoch = s.epoch := by
  simp [State.readCommand]

@[simp] theorem State.housekeep_frame (s : State) (bus devfn irq : Byte) :
    (s.housekeep bus devfn irq).cfg = s.cfg ∧ (s.housekeep bus devfn irq).ls = s.ls ∧ (s.housekeep bus devfn irq).seq = s.seq ∧
    (s.housekeep bus devfn irq).lat = s.lat ∧ (s.housekeep bus devfn irq).res = s.res ∧ (s.housekeep bus devfn irq).attached = s.attached ∧
    (s.housekeep bus devfn irq).registered = s.registered ∧ (s.housekeep bus devfn irq).calFail = s.calFail ∧
    (s.housekeep bus devfn irq).busy = s.busy ∧ (s.housekeep bus devfn irq).fixup = s.fixup ∧ (s.housekeep bus devfn irq).rstOut = s.rstOut ∧
    (s.housekeep bus devfn irq).ss = s.ss ∧ (s.housekeep bus devfn irq).sc = s.sc ∧ (s.housekeep bus devfn irq).phyLog = s.phyLog ∧
    (s.housekeep bus devfn irq).plain = s.plain ∧ (s.housekeep bus devfn irq).raised = s.raised ∧ (s.housekeep bus devfn irq).xHit = s.xHit ∧
    (s.housekeep bus devfn irq).xAddr = s.xAddr ∧ (s.housekeep bus devfn irq).ret = s.ret ∧ (s.housekeep bus devfn irq).inputs = s.inputs ∧
    (s.housekeep bus devfn irq).resOks = s.resOks ∧ (s.housekeep bus devfn irq).resOkCount = s.resOkCount ∧
    (s.housekeep bus devfn irq).epoch = s.epoch := by
  simp [State.housekeep]

@[simp] theorem State.zeroBase_frame (s : State) :
    (s.zeroBase).cfg = s.cfg ∧ (s.zeroBase).ls = s.ls ∧ (s.zeroBase).seq = s.seq ∧ (s.zeroBase).lat = s.lat ∧ (s.zeroBase).res = s.res ∧
    (s.zeroBase).attached = s.attached ∧ (s.zeroBase).registered = s.registered ∧ (s.zeroBase).calFail = s.calFail ∧
    (s.zeroBase).busy = s.busy ∧ (s.zeroBase).fixup = s.fixup ∧ (s.zeroBase).rstOut = s.rstOut ∧ (s.zeroBase).br = s.br ∧
    (s.zeroBase).sc = s.sc ∧ (s.zeroBase).plain = s.plain ∧ (s.zeroBase).mem = s.mem ∧ (s.zeroBase).raised = s.raised ∧
    (s.zeroBase).xHit = s.xHit ∧ (s.zeroBase).xAddr = s.xAddr ∧ (s.zeroBase).ret = s.ret ∧ (s.zeroBase).inputs = s.inputs ∧
    (s.zeroBase).resOks = s.resOks ∧ (s.zeroBase).resOkCount = s.resOkCount ∧ (s.zeroBase).epoch = s.epoch := by
  simp [State.zeroBase]

@[simp] theorem State.rootFixup_frame (s : State) :
    (s.rootFixup).cfg = s.cfg ∧ (s.rootFixup).ls = s.ls ∧ (s.rootFixup).seq = s.seq ∧ (s.rootFixup).lat = s.lat ∧ (s.rootFixup).res = s.res ∧
    (s.rootFixup).attached = s.attached ∧ (s.rootFixup).registered = s.registered ∧ (s.rootFixup).calFail = s.calFail ∧
    (s.rootFixup).busy = s.busy ∧ (s.rootFixup).fixup = s.fixup ∧ (s.rootFixup).rstOut = s.rstOut ∧ (s.rootFixup).br = s.br ∧
    (s.rootFixup).sc = s.sc ∧ (s.rootFixup).plain = s.plain ∧ (s.rootFixup).mem = s.mem ∧ (s.rootFixup).raised = s.raised ∧
    (s.rootFixup).xHit = s.xHit ∧ (s.rootFixup).xAddr = s.xAddr ∧ (s.rootFixup).ret = s.ret ∧ (s.rootFixup).inputs = s.inputs ∧
    (s.rootFixup).resOks = s.resOks ∧ (s.rootFixup).resOkCount = s.resOkCount ∧ (s.rootFixup).epoch = s.epoch := by
  simp [State.rootFixup]

@[simp] theorem State.mapirqFinish_frame (s : State) (bus : Byte) (slot : BitVec 5) (irq : Byte) :
    (s.mapirqFinish bus slot irq).cfg = s.cfg ∧ (s.mapirqFinish bus slot irq).ls = s.ls ∧ (s.mapirqFinish bus slot irq).seq = s.seq ∧
    (s.mapirqFinish bus slot irq).lat = s.lat ∧ (s.mapirqFinish bus slot irq).attached = s.attached ∧
    (s.mapirqFinish bus slot irq).registered = s.registered ∧ (s.mapirqFinish bus slot irq).calFail = s.calFail ∧
    (s.mapirqFinish bus slot irq).fixup = s.fixup ∧ (s.mapirqFinish bus slot irq).rstOut = s.rstOut ∧ (s.mapirqFinish bus slot irq).ss = s.ss ∧
    (s.mapirqFinish bus slot irq).sc = s.sc ∧ (s.mapirqFinish bus slot irq).phyLog = s.phyLog ∧ (s.mapirqFinish bus slot irq).plain = s.plain ∧
    (s.mapirqFinish bus slot irq).raised = s.raised ∧ (s.mapirqFinish bus slot irq).xHit = s.xHit ∧
    (s.mapirqFinish bus slot irq).xAddr = s.xAddr ∧ (s.mapirqFinish bus slot irq).ret = s.ret ∧
    (s.mapirqFinish bus slot irq).inputs = s.inputs ∧ (s.mapirqFinish bus slot irq).resOks = s.resOks ∧
    (s.mapirqFinish bus slot irq).resOkCount = s.resOkCount ∧ (s.mapirqFinish bus slot irq).epoch = s.epoch := by
  unfold State.mapirqFinish; split <;> simp

@[simp] theorem State.mapirqRun_frame (s : State) (bus : Byte) (slot : BitVec 5) :
    (s.mapirqRun bus slot).cfg = s.cfg ∧ (s.mapirqRun bus slot).ls = s.ls ∧ (s.mapirqRun bus slot).seq = s.seq ∧
    (s.mapirqRun bus slot).lat = s.lat ∧ (s.mapirqRun bus slot).attached = s.attached ∧ (s.mapirqRun bus slot).registered = s.registered ∧
    (s.mapirqRun bus slot).calFail = s.calFail ∧ (s.mapirqRun bus slot).rstOut = s.rstOut ∧ (s.mapirqRun bus slot).sc = s.sc ∧
    (s.mapirqRun bus slot).plain = s.plain ∧ (s.mapirqRun bus slot).xHit = s.xHit ∧ (s.mapirqRun bus slot).xAddr = s.xAddr ∧
    (s.mapirqRun bus slot).ret = s.ret ∧ (s.mapirqRun bus slot).inputs = s.inputs ∧ (s.mapirqRun bus slot).resOks = s.resOks ∧
    (s.mapirqRun bus slot).resOkCount = s.resOkCount ∧ (s.mapirqRun bus slot).epoch = s.epoch := by
  unfold State.mapirqRun; (repeat' split) <;> simp

@[simp] theorem State.mapirqResume_frame (s : State) :
    (s.mapirqResume).cfg = s.cfg ∧ (s.mapirqResume).ls = s.ls ∧ (s.mapirqResume).seq = s.seq ∧ (s.mapirqResume).lat = s.lat ∧
    (s.mapirqResume).attached = s.attached ∧ (s.mapirqResume).registered = s.registered ∧ (s.mapirqResume).calFail = s.calFail ∧
    (s.mapirqResume).rstOut = s.rstOut ∧ (s.mapirqResume).sc = s.sc ∧ (s.mapirqResume).plain = s.plain ∧ (s.mapirqResume).raised = s.raised ∧
    (s.mapirqResume).xHit = s.xHit ∧ (s.mapirqResume).xAddr = s.xAddr ∧ (s.mapirqResume).ret = s.ret ∧ (s.mapirqResume).inputs = s.inputs ∧
    (s.mapirqResume).resOks = s.resOks ∧ (s.mapirqResume).resOkCount = s.resOkCount ∧ (s.mapirqResume).epoch = s.epoch := by
  simp [State.mapirqResume]

@[simp] theorem State.mapirqFinish_end (s : State) (bus : Byte) (slot : BitVec 5) (irq : Byte) :
    (s.mapirqFinish bus slot irq).busy = false ∧
    (s.mapirqFinish bus slot irq).res = { status := statusOk, aux := irq, rdata := 0 } := ⟨rfl, rfl⟩

@[simp] theorem State.mapirqResume_end (s : State) :
    s.mapirqResume.fixup = false ∧ s.mapirqResume.busy = false ∧ s.mapirqResume.res = { status := statusOk, aux := 0, rdata := 0 } ∧
    s.mapirqResume.ss = s.zeroBase.ss := by
  refine ⟨?_, rfl, rfl, ?_⟩ <;> simp [State.mapirqResume]

@[simp] theorem State.mapirqBody_frame (s : State) (bus : Byte) (slot : BitVec 5) :
    (s.mapirqBody bus slot).cfg = s.cfg ∧ (s.mapirqBody bus slot).ls = s.ls ∧ (s.mapirqBody bus slot).seq = s.seq ∧
    (s.mapirqBody bus slot).lat = s.lat ∧ (s.mapirqBody bus slot).attached = s.attached ∧ (s.mapirqBody bus slot).registered = s.registered ∧
    (s.mapirqBody bus slot).calFail = s.calFail ∧ (s.mapirqBody bus slot).rstOut = s.rstOut ∧ (s.mapirqBody bus slot).sc = s.sc ∧
    (s.mapirqBody bus slot).plain = s.plain ∧ (s.mapirqBody bus slot).xHit = s.xHit ∧ (s.mapirqBody bus slot).xAddr = s.xAddr ∧
    (s.mapirqBody bus slot).ret = s.ret ∧ (s.mapirqBody bus slot).inputs = s.inputs ∧ (s.mapirqBody bus slot).resOks = s.resOks ∧
    (s.mapirqBody bus slot).resOkCount = s.resOkCount ∧ (s.mapirqBody bus slot).epoch = s.epoch := by
  unfold State.mapirqBody; split <;> simp

@[simp] theorem State.cfgrdBody_frame (s : State) (w : Width) (bus devfn : Byte) (off : BitVec 12) :
    (s.cfgrdBody w bus devfn off).cfg = s.cfg ∧ (s.cfgrdBody w bus devfn off).ls = s.ls ∧ (s.cfgrdBody w bus devfn off).seq = s.seq ∧
    (s.cfgrdBody w bus devfn off).lat = s.lat ∧ (s.cfgrdBody w bus devfn off).attached = s.attached ∧
    (s.cfgrdBody w bus devfn off).registered = s.registered ∧ (s.cfgrdBody w bus devfn off).calFail = s.calFail ∧
    (s.cfgrdBody w bus devfn off).fixup = s.fixup ∧ (s.cfgrdBody w bus devfn off).rstOut = s.rstOut ∧ (s.cfgrdBody w bus devfn off).ss = s.ss ∧
    (s.cfgrdBody w bus devfn off).sc = s.sc ∧ (s.cfgrdBody w bus devfn off).phyLog = s.phyLog ∧ (s.cfgrdBody w bus devfn off).plain = s.plain ∧
    (s.cfgrdBody w bus devfn off).xHit = s.xHit ∧ (s.cfgrdBody w bus devfn off).xAddr = s.xAddr ∧ (s.cfgrdBody w bus devfn off).ret = s.ret ∧
    (s.cfgrdBody w bus devfn off).inputs = s.inputs ∧ (s.cfgrdBody w bus devfn off).resOks = s.resOks ∧
    (s.cfgrdBody w bus devfn off).resOkCount = s.resOkCount ∧ (s.cfgrdBody w bus devfn off).epoch = s.epoch := by
  unfold State.cfgrdBody; split <;> simp

@[simp] theorem State.cfgwrBody_frame (s : State) (w : Width) (bus devfn : Byte) (off : BitVec 12) (v : Word) :
    (s.cfgwrBody w bus devfn off v).cfg = s.cfg ∧ (s.cfgwrBody w bus devfn off v).ls = s.ls ∧ (s.cfgwrBody w bus devfn off v).seq = s.seq ∧
    (s.cfgwrBody w bus devfn off v).lat = s.lat ∧ (s.cfgwrBody w bus devfn off v).attached = s.attached ∧
    (s.cfgwrBody w bus devfn off v).registered = s.registered ∧ (s.cfgwrBody w bus devfn off v).calFail = s.calFail ∧
    (s.cfgwrBody w bus devfn off v).fixup = s.fixup ∧ (s.cfgwrBody w bus devfn off v).rstOut = s.rstOut ∧
    (s.cfgwrBody w bus devfn off v).ss = s.ss ∧ (s.cfgwrBody w bus devfn off v).sc = s.sc ∧ (s.cfgwrBody w bus devfn off v).phyLog = s.phyLog ∧
    (s.cfgwrBody w bus devfn off v).plain = s.plain ∧ (s.cfgwrBody w bus devfn off v).xHit = s.xHit ∧
    (s.cfgwrBody w bus devfn off v).xAddr = s.xAddr ∧ (s.cfgwrBody w bus devfn off v).ret = s.ret ∧
    (s.cfgwrBody w bus devfn off v).inputs = s.inputs ∧ (s.cfgwrBody w bus devfn off v).resOks = s.resOks ∧
    (s.cfgwrBody w bus devfn off v).resOkCount = s.resOkCount ∧ (s.cfgwrBody w bus devfn off v).epoch = s.epoch := by
  unfold State.cfgwrBody; split <;> simp

@[simp] theorem State.illegalBody_frame (s : State) :
    (s.illegalBody).cfg = s.cfg ∧ (s.illegalBody).ls = s.ls ∧ (s.illegalBody).seq = s.seq ∧ (s.illegalBody).lat = s.lat ∧
    (s.illegalBody).work = s.work ∧ (s.illegalBody).attached = s.attached ∧ (s.illegalBody).registered = s.registered ∧
    (s.illegalBody).calFail = s.calFail ∧ (s.illegalBody).fixup = s.fixup ∧ (s.illegalBody).rstOut = s.rstOut ∧ (s.illegalBody).br = s.br ∧
    (s.illegalBody).ss = s.ss ∧ (s.illegalBody).sc = s.sc ∧ (s.illegalBody).phyLog = s.phyLog ∧ (s.illegalBody).plain = s.plain ∧
    (s.illegalBody).mem = s.mem ∧ (s.illegalBody).hist = s.hist ∧ (s.illegalBody).ans = s.ans ∧ (s.illegalBody).xHit = s.xHit ∧
    (s.illegalBody).xAddr = s.xAddr ∧ (s.illegalBody).ret = s.ret ∧ (s.illegalBody).inputs = s.inputs ∧ (s.illegalBody).draws = s.draws ∧
    (s.illegalBody).drawCount = s.drawCount ∧ (s.illegalBody).resOks = s.resOks ∧ (s.illegalBody).resOkCount = s.resOkCount ∧
    (s.illegalBody).epoch = s.epoch := by
  simp [State.illegalBody]

@[simp] theorem State.attachBody_frame (s : State) :
    (s.attachBody).cfg = s.cfg ∧ (s.attachBody).ls = s.ls ∧ (s.attachBody).lat = s.lat ∧ (s.attachBody).work = s.work ∧
    (s.attachBody).registered = s.registered ∧ (s.attachBody).calFail = s.calFail ∧ (s.attachBody).fixup = s.fixup ∧
    (s.attachBody).rstOut = s.rstOut ∧ (s.attachBody).br = s.br ∧ (s.attachBody).ss = s.ss ∧ (s.attachBody).sc = s.sc ∧
    (s.attachBody).phyLog = s.phyLog ∧ (s.attachBody).plain = s.plain ∧ (s.attachBody).mem = s.mem ∧ (s.attachBody).hist = s.hist ∧
    (s.attachBody).ans = s.ans ∧ (s.attachBody).xHit = s.xHit ∧ (s.attachBody).xAddr = s.xAddr ∧ (s.attachBody).ret = s.ret ∧
    (s.attachBody).inputs = s.inputs ∧ (s.attachBody).draws = s.draws ∧ (s.attachBody).drawCount = s.drawCount ∧ (s.attachBody).epoch = s.epoch := by
  unfold State.attachBody; (repeat' split) <;> simp

@[simp] theorem State.wincfg_frame (s : State) :
    (s.wincfg).cfg = s.cfg ∧ (s.wincfg).ls = s.ls ∧ (s.wincfg).seq = s.seq ∧ (s.wincfg).lat = s.lat ∧ (s.wincfg).res = s.res ∧
    (s.wincfg).work = s.work ∧ (s.wincfg).attached = s.attached ∧ (s.wincfg).calFail = s.calFail ∧ (s.wincfg).busy = s.busy ∧
    (s.wincfg).fixup = s.fixup ∧ (s.wincfg).rstOut = s.rstOut ∧ (s.wincfg).sc = s.sc ∧ (s.wincfg).plain = s.plain ∧
    (s.wincfg).raised = s.raised ∧ (s.wincfg).xHit = s.xHit ∧ (s.wincfg).xAddr = s.xAddr ∧ (s.wincfg).ret = s.ret ∧
    (s.wincfg).inputs = s.inputs ∧ (s.wincfg).resOks = s.resOks ∧ (s.wincfg).resOkCount = s.resOkCount ∧ (s.wincfg).epoch = s.epoch := by
  simp [State.wincfg]

end Sys2Proof.Machine
end

