-- ==== Sys2Proof/Laws/Memory.lean ====
section
/-! SUPPORT. The byte store of configuration space: a read after a write, the canonical form kept by every write, the dword of a location. -/

namespace Sys2Proof.Machine

theorem Memory.read_write (u : Nat → Byte) (m : List Host.Cell) (a b : Nat) (v : Byte) :
    ∀ lo, Memory.wfFrom u lo m = true → Memory.read u (Memory.write u m a v) b = if b = a then v else Memory.read u m b := by
  induction m with
  | nil => intro lo _; simp only [Memory.write]; split <;> simp_all [Memory.read]
  | cons c m ih =>
    obtain ⟨x, w⟩ := c
    intro lo h
    simp only [Memory.wfFrom, Bool.and_eq_true] at h
    have ih := ih _ h.2
    have low : ∀ y, y ≤ x → Memory.read u m y = u y := by
      have : ∀ (l : List Host.Cell) (lo y : Nat), Memory.wfFrom u lo l = true → y < lo → Memory.read u l y = u y := by
        intro l
        induction l with
        | nil => intros; rfl
        | cons d l ih =>
          obtain ⟨z, y0⟩ := d
          intro lo y h hy
          simp only [Memory.wfFrom, Bool.and_eq_true, decide_eq_true_eq] at h
          rw [Memory.read, if_neg (by omega)]
          exact ih _ _ h.2 (by omega)
      exact fun y hy => this m _ y h.2 (by omega)
    simp only [Memory.write]
    split
    · rename_i hlt
      split
      · rename_i hv
        by_cases hb : b = a
        · subst hb
          rw [if_pos rfl, Memory.read, if_neg (by omega), low b (by omega), hv]
        · rw [if_neg hb]
      · rw [Memory.read]
    · split
      · rename_i h1 h2
        subst h2
        split
        · rename_i hv
          by_cases hb : b = a
          · subst hb; rw [if_pos rfl, low b (by omega), hv]
          · rw [if_neg hb, Memory.read, if_neg hb]
        · by_cases hb : b = a
          · simp [Memory.read, hb]
          · simp [Memory.read, hb]
      · rename_i h1 h2
        rw [Memory.read]
        by_cases hx : b = x
        · subst hx; rw [if_pos rfl, if_neg (by omega), Memory.read, if_pos rfl]
        · rw [if_neg hx, ih]
          by_cases hb : b = a
          · rw [if_pos hb, if_pos hb]
          · rw [if_neg hb, if_neg hb, Memory.read, if_neg hx]

theorem Memory.write_wfFrom (u : Nat → Byte) (m : List Host.Cell) (a : Nat) (v : Byte) (ha : a < 2 ^ 28) :
    ∀ lo, lo ≤ a → Memory.wfFrom u lo m = true → Memory.wfFrom u lo (Memory.write u m a v) = true := by
  induction m with
  | nil => intro lo hlo _; simp only [Memory.write]; split <;> simp_all [Memory.wfFrom]
  | cons c m ih =>
    obtain ⟨x, w⟩ := c
    intro lo hlo h
    have h' := h
    simp only [Memory.wfFrom, Bool.and_eq_true, decide_eq_true_eq] at h
    obtain ⟨⟨⟨h1, h2⟩, h3⟩, h4⟩ := h
    simp only [Memory.write]
    split
    · split
      · exact h'
      · simp_all [Memory.wfFrom]
    · split
      · split
        · have : ∀ (l : List Host.Cell) (p q : Nat), p ≤ q → Memory.wfFrom u q l = true → Memory.wfFrom u p l = true := by
            intro l p q hpq hl
            cases l with
            | nil => rfl
            | cons d l => simp only [Memory.wfFrom, Bool.and_eq_true, decide_eq_true_eq] at hl ⊢; exact ⟨⟨⟨by omega, hl.1.1.2⟩, hl.1.2⟩, hl.2⟩
          exact this _ _ _ (by omega) h4
        · simp_all [Memory.wfFrom]
      · simp only [Memory.wfFrom, Bool.and_eq_true, decide_eq_true_eq]
        exact ⟨⟨⟨h1, h2⟩, h3⟩, ih _ (by omega) h4⟩

/-- A write keeps the canonical form. -/
theorem Memory.write_wf (u : Nat → Byte) (m : List Host.Cell) (a : Nat) (v : Byte) (ha : a < 2 ^ 28) (h : Memory.wf u m = true) :
    Memory.wf u (Memory.write u m a v) = true :=
  Memory.write_wfFrom u m a v ha 0 (Nat.zero_le _) h

theorem locAddr_lt (loc : BitVec 26) : locAddr loc + 3 < 2 ^ 28 := by
  have := loc.isLt; simp only [locAddr]; omega

theorem Memory.writeDword_wf (u : Nat → Byte) (m : List Host.Cell) (loc : BitVec 26) (v : Word) (h : Memory.wf u m = true) :
    Memory.wf u (Memory.writeDword u m loc v) = true := by
  have := locAddr_lt loc
  simp only [Memory.writeDword]
  refine Memory.write_wf u _ _ _ (by omega) (Memory.write_wf u _ _ _ (by omega) (Memory.write_wf u _ _ _ (by omega) (Memory.write_wf u _ _ _ (by omega) h)))

/-- One byte of the store after a dword write: the four lanes of the location, everything else as before. -/
theorem Memory.read_writeDword (u : Nat → Byte) (m : List Host.Cell) (loc : BitVec 26) (v : Word) (b : Nat) (h : Memory.wf u m = true) :
    Memory.read u (Memory.writeDword u m loc v) b =
      if b = locAddr loc + 3 then v.extractLsb' 24 8
      else if b = locAddr loc + 2 then v.extractLsb' 16 8
      else if b = locAddr loc + 1 then v.extractLsb' 8 8
      else if b = locAddr loc then v.extractLsb' 0 8
      else Memory.read u m b := by
  have hl := locAddr_lt loc
  have h1 := Memory.write_wf u m (locAddr loc) (v.extractLsb' 0 8) (by omega) h
  have h2 := Memory.write_wf u _ (locAddr loc + 1) (v.extractLsb' 8 8) (by omega) h1
  have h3 := Memory.write_wf u _ (locAddr loc + 2) (v.extractLsb' 16 8) (by omega) h2
  simp only [Memory.writeDword]
  rw [Memory.read_write u _ _ _ _ 0 h3, Memory.read_write u _ _ _ _ 0 h2, Memory.read_write u _ _ _ _ 0 h1, Memory.read_write u _ _ _ _ 0 h]

theorem bytes_of_dword (v : Word) :
    v.extractLsb' 24 8 ++ v.extractLsb' 16 8 ++ v.extractLsb' 8 8 ++ v.extractLsb' 0 8 = v := by
  ext i hi
  simp only [BitVec.getElem_append, BitVec.getElem_extractLsb']
  split
  · simp [BitVec.getLsbD_eq_getElem hi]
  · split
    · simp only [show 8 + (i - 8) = i by omega, BitVec.getLsbD_eq_getElem hi]
    · split
      · simp only [show 16 + (i - 8 - 8) = i by omega, BitVec.getLsbD_eq_getElem hi]
      · simp only [show 24 + (i - 8 - 8 - 8) = i by omega, BitVec.getLsbD_eq_getElem hi]

/-- The dword read back after a dword write: at the written location the value, elsewhere as before. -/
theorem Memory.readDword_writeDword (u : Nat → Byte) (m : List Host.Cell) (loc loc' : BitVec 26) (v : Word) (h : Memory.wf u m = true) :
    Memory.readDword u (Memory.writeDword u m loc v) loc' = if loc' = loc then v else Memory.readDword u m loc' := by
  by_cases e : loc' = loc
  · subst e
    simp [Memory.readDword, Memory.read_writeDword u m loc' v _ h, bytes_of_dword]
  · have hn : loc'.toNat ≠ loc.toNat := fun hh => e (BitVec.eq_of_toNat_eq hh)
    have far : ∀ k, k < 4 → Memory.read u (Memory.writeDword u m loc v) (4 * loc'.toNat + k) = Memory.read u m (4 * loc'.toNat + k) := by
      intro k hk
      rw [Memory.read_writeDword u m loc v _ h, if_neg (by simp only [locAddr]; omega), if_neg (by simp only [locAddr]; omega),
        if_neg (by simp only [locAddr]; omega), if_neg (by simp only [locAddr]; omega)]
    rw [if_neg e]
    simp only [Memory.readDword, locAddr]
    rw [far 3 (by omega), far 2 (by omega), far 1 (by omega), show Memory.read u (Memory.writeDword u m loc v) (4 * loc'.toNat) = _ from far 0 (by omega)]
    rfl

/-- What a write of CFGDATA leaves in the store keeps the canonical form. -/
theorem State.cfgStore_wf (s : State) (v : Word) (h : s.memWf = true) : Memory.wf s.unlisted (s.cfgStore v) = true := by
  unfold State.cfgStore
  split
  · exact Memory.writeDword_wf _ _ _ _ h
  · exact h

theorem State.brWr32_mem_wf (s : State) (off : Half) (v : Word) (h : s.memWf = true) :
    (s.brWr32 off v).memWf = true := by
  simp only [State.brWr32]
  split
  · exact s.cfgStore_wf v h
  · exact h

theorem State.brMod32_mem_wf (s : State) (off : Half) (clr set : Word) (h : s.memWf = true) :
    (s.brMod32 off clr set).memWf = true :=
  State.brWr32_mem_wf _ _ _ h

theorem State.cfgSelect_mem_wf (s : State) (bus devfn : Byte) (off : BitVec 12) (h : s.memWf = true) :
    (s.cfgSelect bus devfn off).memWf = true :=
  State.brWr32_mem_wf _ _ _ h

theorem State.cfgFetch_mem_wf (s : State) (bus devfn : Byte) (off : BitVec 12) (h : s.memWf = true) :
    (s.cfgFetch bus devfn off).memWf = true :=
  State.cfgSelect_mem_wf _ _ _ _ h

theorem State.cfgRead_mem_wf (s : State) (w : Width) (bus devfn : Byte) (off : BitVec 12) (h : s.memWf = true) :
    (s.cfgRead w bus devfn off).memWf = true := by
  cases w <;> exact State.cfgFetch_mem_wf _ _ _ _ h

theorem State.cfgWrite_mem_wf (s : State) (w : Width) (bus devfn : Byte) (off : BitVec 12) (v : Word)
    (h : s.memWf = true) : (s.cfgWrite w bus devfn off v).memWf = true := by
  cases w
  · exact State.brWr32_mem_wf _ _ _ (State.cfgFetch_mem_wf s bus devfn off h)
  · exact State.brWr32_mem_wf _ _ _ (State.cfgFetch_mem_wf s bus devfn off h)
  · exact State.brWr32_mem_wf _ _ _ (State.cfgSelect_mem_wf s bus devfn off h)

theorem State.readCommand_mem_wf (s : State) (bus devfn : Byte) (h : s.memWf = true) :
    (s.readCommand bus devfn).memWf = true :=
  State.cfgRead_mem_wf s .half bus devfn s.cfg.pciCommand h

theorem State.housekeep_mem_wf (s : State) (bus devfn irq : Byte) (h : s.memWf = true) :
    (s.housekeep bus devfn irq).memWf = true := by
  unfold State.housekeep
  apply State.cfgWrite_mem_wf
  apply State.cfgWrite_mem_wf
  apply State.readCommand_mem_wf
  apply State.cfgWrite_mem_wf
  apply State.cfgWrite_mem_wf
  exact h

/-- The canonical form is about the store and the reset number alone. -/
theorem State.memWf_congr {s t : State} (hm : t.mem = s.mem) (he : t.epoch = s.epoch) : t.memWf = s.memWf := by
  rw [State.memWf, State.memWf, State.unlisted_eq, State.unlisted_eq, hm, he]

theorem State.mapirqFinish_mem_wf (s : State) (bus : Byte) (slot : BitVec 5) (irq : Byte) (h : s.memWf = true) :
    (s.mapirqFinish bus slot irq).memWf = true := by
  have hi : (s.setIrq irq).memWf = true := (State.memWf_congr (t := s.setIrq irq) rfl rfl).trans h
  unfold State.mapirqFinish
  rw [State.memWf_congr (State.complete_mem _ _ _ _) (State.complete_epoch _ _ _ _)]
  split
  · exact State.housekeep_mem_wf _ _ _ _ hi
  · exact hi

theorem State.mapirqResume_mem_wf (s : State) (h : s.memWf = true) : s.mapirqResume.memWf = true :=
  State.mapirqFinish_mem_wf s.zeroBase 0 0 0 ((State.memWf_congr (by simp) (by simp)).trans h)

/-- The store at reset has the canonical form. -/
theorem State.reset_mem_wf : State.reset.memWf = true := rfl

end Sys2Proof.Machine
end

