-- ==== Sys2Proof/Laws/Registers.lean ====
section
/-! SUPPORT. What a read, a write or a modify of each named register gives under a well-formed Cfg (R17 (a): the offsets of one window are distinct):
the one register it names, and no other. -/

namespace Sys2Proof

theorem Cfg.Wf.brDistinct {c : Cfg} (h : c.Wf) :
    c.offPcimsk ≠ c.offCfgaddr ∧ c.offPcimsk ≠ c.offCfgdata ∧ c.offPcimsk ≠ c.offMembase ∧ c.offPcimsk ≠ c.offIobase ∧
    c.offCfgaddr ≠ c.offPcimsk ∧ c.offCfgaddr ≠ c.offCfgdata ∧ c.offCfgaddr ≠ c.offMembase ∧ c.offCfgaddr ≠ c.offIobase ∧
    c.offCfgdata ≠ c.offPcimsk ∧ c.offCfgdata ≠ c.offCfgaddr ∧ c.offCfgdata ≠ c.offMembase ∧ c.offCfgdata ≠ c.offIobase ∧
    c.offMembase ≠ c.offPcimsk ∧ c.offMembase ≠ c.offCfgaddr ∧ c.offMembase ≠ c.offCfgdata ∧ c.offMembase ≠ c.offIobase ∧
    c.offIobase ≠ c.offPcimsk ∧ c.offIobase ≠ c.offCfgaddr ∧ c.offIobase ≠ c.offCfgdata ∧ c.offIobase ≠ c.offMembase := by
  have h := h.1.2.1
  simp only [Cfg.brOffsets, List.nodup_cons, List.mem_cons, List.not_mem_nil, or_false, not_or, List.nodup_nil, and_true] at h
  grind

theorem Cfg.Wf.ssDistinct {c : Cfg} (h : c.Wf) :
    c.offBar0setup ≠ c.offImbasebar0 ∧ c.offBar0setup ≠ c.offId ∧ c.offBar0setup ≠ c.offClass ∧ c.offBar0setup ≠ c.offSubid ∧
    c.offBar0setup ≠ c.offStatus ∧ c.offBar0setup ≠ c.offPhycfg ∧ c.offImbasebar0 ≠ c.offBar0setup ∧ c.offImbasebar0 ≠ c.offId ∧
    c.offImbasebar0 ≠ c.offClass ∧ c.offImbasebar0 ≠ c.offSubid ∧ c.offImbasebar0 ≠ c.offStatus ∧ c.offImbasebar0 ≠ c.offPhycfg ∧
    c.offId ≠ c.offBar0setup ∧ c.offId ≠ c.offImbasebar0 ∧ c.offId ≠ c.offClass ∧ c.offId ≠ c.offSubid ∧ c.offId ≠ c.offStatus ∧
    c.offId ≠ c.offPhycfg ∧ c.offClass ≠ c.offBar0setup ∧ c.offClass ≠ c.offImbasebar0 ∧ c.offClass ≠ c.offId ∧ c.offClass ≠ c.offSubid ∧
    c.offClass ≠ c.offStatus ∧ c.offClass ≠ c.offPhycfg ∧ c.offSubid ≠ c.offBar0setup ∧ c.offSubid ≠ c.offImbasebar0 ∧ c.offSubid ≠ c.offId ∧
    c.offSubid ≠ c.offClass ∧ c.offSubid ≠ c.offStatus ∧ c.offSubid ≠ c.offPhycfg ∧ c.offStatus ≠ c.offBar0setup ∧
    c.offStatus ≠ c.offImbasebar0 ∧ c.offStatus ≠ c.offId ∧ c.offStatus ≠ c.offClass ∧ c.offStatus ≠ c.offSubid ∧ c.offStatus ≠ c.offPhycfg ∧
    c.offPhycfg ≠ c.offBar0setup ∧ c.offPhycfg ≠ c.offImbasebar0 ∧ c.offPhycfg ≠ c.offId ∧ c.offPhycfg ≠ c.offClass ∧
    c.offPhycfg ≠ c.offSubid ∧ c.offPhycfg ≠ c.offStatus := by
  have h := h.1.2.2.1
  simp only [Cfg.ssOffsets, List.nodup_cons, List.mem_cons, List.not_mem_nil, or_false, not_or, List.nodup_nil, and_true] at h
  grind

theorem Cfg.Wf.scDistinct {c : Cfg} (h : c.Wf) :
    c.offSyscfg1 ≠ c.offClkcfg1 ∧ c.offSyscfg1 ≠ c.offGpiomode ∧ c.offSyscfg1 ≠ c.offClkgen0 ∧ c.offSyscfg1 ≠ c.offClkgen1 ∧
    c.offSyscfg1 ≠ c.offPpllcfg1 ∧ c.offSyscfg1 ≠ c.offPplldrv ∧ c.offClkcfg1 ≠ c.offSyscfg1 ∧ c.offClkcfg1 ≠ c.offGpiomode ∧
    c.offClkcfg1 ≠ c.offClkgen0 ∧ c.offClkcfg1 ≠ c.offClkgen1 ∧ c.offClkcfg1 ≠ c.offPpllcfg1 ∧ c.offClkcfg1 ≠ c.offPplldrv ∧
    c.offGpiomode ≠ c.offSyscfg1 ∧ c.offGpiomode ≠ c.offClkcfg1 ∧ c.offGpiomode ≠ c.offClkgen0 ∧ c.offGpiomode ≠ c.offClkgen1 ∧
    c.offGpiomode ≠ c.offPpllcfg1 ∧ c.offGpiomode ≠ c.offPplldrv ∧ c.offClkgen0 ≠ c.offSyscfg1 ∧ c.offClkgen0 ≠ c.offClkcfg1 ∧
    c.offClkgen0 ≠ c.offGpiomode ∧ c.offClkgen0 ≠ c.offClkgen1 ∧ c.offClkgen0 ≠ c.offPpllcfg1 ∧ c.offClkgen0 ≠ c.offPplldrv ∧
    c.offClkgen1 ≠ c.offSyscfg1 ∧ c.offClkgen1 ≠ c.offClkcfg1 ∧ c.offClkgen1 ≠ c.offGpiomode ∧ c.offClkgen1 ≠ c.offClkgen0 ∧
    c.offClkgen1 ≠ c.offPpllcfg1 ∧ c.offClkgen1 ≠ c.offPplldrv ∧ c.offPpllcfg1 ≠ c.offSyscfg1 ∧ c.offPpllcfg1 ≠ c.offClkcfg1 ∧
    c.offPpllcfg1 ≠ c.offGpiomode ∧ c.offPpllcfg1 ≠ c.offClkgen0 ∧ c.offPpllcfg1 ≠ c.offClkgen1 ∧ c.offPpllcfg1 ≠ c.offPplldrv ∧
    c.offPplldrv ≠ c.offSyscfg1 ∧ c.offPplldrv ≠ c.offClkcfg1 ∧ c.offPplldrv ≠ c.offGpiomode ∧ c.offPplldrv ≠ c.offClkgen0 ∧
    c.offPplldrv ≠ c.offClkgen1 ∧ c.offPplldrv ≠ c.offPpllcfg1 := by
  have h := h.1.2.2.2
  simp only [Cfg.scOffsets, List.nodup_cons, List.mem_cons, List.not_mem_nil, or_false, not_or, List.nodup_nil, and_true] at h
  grind

end Sys2Proof

namespace Sys2Proof.Machine

theorem BrRegs.write_pcimsk {c : Cfg} (h : c.Wf) (r : BrRegs) (v : Word) : r.write c c.offPcimsk v = { r with pcimsk := v } := by
  have := h.brDistinct; simp [BrRegs.write, *]

theorem State.brFixed_pcimsk {c : Cfg} (h : c.Wf) {s : State} {off : Half} (hc : s.cfg = c) (e : off = c.offPcimsk) : s.brFixed off = some s.br.pcimsk := by
  have := h.brDistinct; simp [State.brFixed, *]

theorem BrRegs.write_cfgaddr {c : Cfg} (h : c.Wf) (r : BrRegs) (v : Word) : r.write c c.offCfgaddr v = { r with cfgaddr := v } := by
  have := h.brDistinct; simp [BrRegs.write, *]

theorem State.brFixed_cfgaddr {c : Cfg} (h : c.Wf) {s : State} {off : Half} (hc : s.cfg = c) (e : off = c.offCfgaddr) : s.brFixed off = some s.br.cfgaddr := by
  have := h.brDistinct; simp [State.brFixed, *]

theorem BrRegs.write_cfgdata {c : Cfg} (h : c.Wf) (r : BrRegs) (v : Word) : r.write c c.offCfgdata v = r := by
  have := h.brDistinct; simp [BrRegs.write, *]

theorem BrRegs.write_membase {c : Cfg} (h : c.Wf) (r : BrRegs) (v : Word) : r.write c c.offMembase v = { r with membase := v } := by
  have := h.brDistinct; simp [BrRegs.write, *]

theorem State.brFixed_membase {c : Cfg} (h : c.Wf) {s : State} {off : Half} (hc : s.cfg = c) (e : off = c.offMembase) : s.brFixed off = some s.br.membase := by
  have := h.brDistinct; simp [State.brFixed, *]

theorem BrRegs.write_iobase {c : Cfg} (h : c.Wf) (r : BrRegs) (v : Word) : r.write c c.offIobase v = { r with iobase := v } := by
  have := h.brDistinct; simp [BrRegs.write, *]

theorem State.brFixed_iobase {c : Cfg} (h : c.Wf) {s : State} {off : Half} (hc : s.cfg = c) (e : off = c.offIobase) : s.brFixed off = some s.br.iobase := by
  have := h.brDistinct; simp [State.brFixed, *]

theorem SsRegs.write_bar0setup {c : Cfg} (h : c.Wf) (r : SsRegs) (v : Word) : r.write c c.offBar0setup v = { r with bar0setup := v } := by
  have := h.ssDistinct; simp [SsRegs.write, *]

theorem State.ssFixed_bar0setup {c : Cfg} (h : c.Wf) {s : State} {off : Half} (hc : s.cfg = c) (e : off = c.offBar0setup) : s.ssFixed off = some s.ss.bar0setup := by
  have := h.ssDistinct; simp [State.ssFixed, *]

theorem SsRegs.write_imbasebar0 {c : Cfg} (h : c.Wf) (r : SsRegs) (v : Word) : r.write c c.offImbasebar0 v = { r with imbasebar0 := v } := by
  have := h.ssDistinct; simp [SsRegs.write, *]

theorem State.ssFixed_imbasebar0 {c : Cfg} (h : c.Wf) {s : State} {off : Half} (hc : s.cfg = c) (e : off = c.offImbasebar0) : s.ssFixed off = some s.ss.imbasebar0 := by
  have := h.ssDistinct; simp [State.ssFixed, *]

theorem SsRegs.write_id {c : Cfg} (h : c.Wf) (r : SsRegs) (v : Word) : r.write c c.offId v = { r with id := v } := by
  have := h.ssDistinct; simp [SsRegs.write, *]

theorem State.ssFixed_id {c : Cfg} (h : c.Wf) {s : State} {off : Half} (hc : s.cfg = c) (e : off = c.offId) : s.ssFixed off = some s.ss.id := by
  have := h.ssDistinct; simp [State.ssFixed, *]

theorem SsRegs.write_cls {c : Cfg} (h : c.Wf) (r : SsRegs) (v : Word) : r.write c c.offClass v = { r with cls := v } := by
  have := h.ssDistinct; simp [SsRegs.write, *]

theorem State.ssFixed_cls {c : Cfg} (h : c.Wf) {s : State} {off : Half} (hc : s.cfg = c) (e : off = c.offClass) : s.ssFixed off = some s.ss.cls := by
  have := h.ssDistinct; simp [State.ssFixed, *]

theorem SsRegs.write_subid {c : Cfg} (h : c.Wf) (r : SsRegs) (v : Word) : r.write c c.offSubid v = { r with subid := v } := by
  have := h.ssDistinct; simp [SsRegs.write, *]

theorem State.ssFixed_subid {c : Cfg} (h : c.Wf) {s : State} {off : Half} (hc : s.cfg = c) (e : off = c.offSubid) : s.ssFixed off = some s.ss.subid := by
  have := h.ssDistinct; simp [State.ssFixed, *]

theorem State.ssFixed_status (s : State) : s.ssFixed s.cfg.offStatus = none := by simp [State.ssFixed]

theorem State.ssFixed_phycfg (s : State) : s.ssFixed s.cfg.offPhycfg = none := by simp [State.ssFixed]

theorem SsRegs.write_phycfg {c : Cfg} (h : c.Wf) (r : SsRegs) (v : Word) : r.write c c.offPhycfg v = r := by
  have := h.ssDistinct; simp [SsRegs.write, *]

theorem ScRegs.modify_syscfg1 {c : Cfg} (h : c.Wf) (r : ScRegs) (clr set : Word) :
    r.modify c c.offSyscfg1 clr set = { r with syscfg1 := modified r.syscfg1 clr set } := by
  have := h.scDistinct; simp [ScRegs.modify, *]

theorem State.scFixed_syscfg1 {c : Cfg} (h : c.Wf) {s : State} {off : Half} (hc : s.cfg = c) (e : off = c.offSyscfg1) : s.scFixed off = some s.sc.syscfg1 := by
  have := h.scDistinct; simp [State.scFixed, *]

theorem ScRegs.modify_clkcfg1 {c : Cfg} (h : c.Wf) (r : ScRegs) (clr set : Word) :
    r.modify c c.offClkcfg1 clr set = { r with clkcfg1 := modified r.clkcfg1 clr set } := by
  have := h.scDistinct; simp [ScRegs.modify, *]

theorem State.scFixed_clkcfg1 {c : Cfg} (h : c.Wf) {s : State} {off : Half} (hc : s.cfg = c) (e : off = c.offClkcfg1) : s.scFixed off = some s.sc.clkcfg1 := by
  have := h.scDistinct; simp [State.scFixed, *]

theorem ScRegs.modify_gpiomode {c : Cfg} (h : c.Wf) (r : ScRegs) (clr set : Word) :
    r.modify c c.offGpiomode clr set = { r with gpiomode := modified r.gpiomode clr set } := by
  have := h.scDistinct; simp [ScRegs.modify, *]

theorem State.scFixed_gpiomode {c : Cfg} (h : c.Wf) {s : State} {off : Half} (hc : s.cfg = c) (e : off = c.offGpiomode) : s.scFixed off = some s.sc.gpiomode := by
  have := h.scDistinct; simp [State.scFixed, *]

theorem ScRegs.modify_clkgen0 {c : Cfg} (h : c.Wf) (r : ScRegs) (clr set : Word) :
    r.modify c c.offClkgen0 clr set = { r with clkgen0 := modified r.clkgen0 clr set } := by
  have := h.scDistinct; simp [ScRegs.modify, *]

theorem State.scFixed_clkgen0 {c : Cfg} (h : c.Wf) {s : State} {off : Half} (hc : s.cfg = c) (e : off = c.offClkgen0) : s.scFixed off = some s.sc.clkgen0 := by
  have := h.scDistinct; simp [State.scFixed, *]

theorem ScRegs.modify_clkgen1 {c : Cfg} (h : c.Wf) (r : ScRegs) (clr set : Word) :
    r.modify c c.offClkgen1 clr set = { r with clkgen1 := modified r.clkgen1 clr set } := by
  have := h.scDistinct; simp [ScRegs.modify, *]

theorem State.scFixed_clkgen1 {c : Cfg} (h : c.Wf) {s : State} {off : Half} (hc : s.cfg = c) (e : off = c.offClkgen1) : s.scFixed off = some s.sc.clkgen1 := by
  have := h.scDistinct; simp [State.scFixed, *]

theorem State.scFixed_ppllcfg1 (s : State) : s.scFixed s.cfg.offPpllcfg1 = none := by simp [State.scFixed]

theorem ScRegs.modify_pplldrv {c : Cfg} (h : c.Wf) (r : ScRegs) (clr set : Word) :
    r.modify c c.offPplldrv clr set = { r with pplldrv := modified r.pplldrv clr set } := by
  have := h.scDistinct; simp [ScRegs.modify, *]

theorem State.scFixed_pplldrv {c : Cfg} (h : c.Wf) {s : State} {off : Half} (hc : s.cfg = c) (e : off = c.offPplldrv) : s.scFixed off = some s.sc.pplldrv := by
  have := h.scDistinct; simp [State.scFixed, *]

theorem State.brRd32_pcimsk {c : Cfg} (h : c.Wf) {s : State} {off : Half} (hc : s.cfg = c) (e : off = c.offPcimsk) :
    s.brRd32 off = { s with ans := s.br.pcimsk, hist := s.hist ++ [.brRd off s.br.pcimsk] } := by
  simp [State.brRd32, State.answered, State.brFixed_pcimsk h hc e]

theorem State.brWr32_pcimsk {c : Cfg} (h : c.Wf) {s : State} {off : Half} (hc : s.cfg = c) (e : off = c.offPcimsk) (v : Word) :
    s.brWr32 off v = { s with br := { s.br with pcimsk := v }, hist := s.hist ++ [.brWr off v] } := by
  have := h.brDistinct; subst hc e; simp [State.brWr32, BrRegs.write_pcimsk h, *]

theorem State.brMod32_pcimsk {c : Cfg} (h : c.Wf) {s : State} {off : Half} (hc : s.cfg = c) (e : off = c.offPcimsk) (clr set : Word) :
    s.brMod32 off clr set = { s with
      br := { s.br with pcimsk := modified s.br.pcimsk clr set }, ans := s.br.pcimsk,
      hist := s.hist ++ [.brRd off s.br.pcimsk, .brWr off (modified s.br.pcimsk clr set)] } := by
  refine (State.brWr32_pcimsk h (s := s.brRd32 off) hc e _).trans ?_
  simp [State.brRd32_pcimsk h hc e]

theorem State.brRd32_cfgaddr {c : Cfg} (h : c.Wf) {s : State} {off : Half} (hc : s.cfg = c) (e : off = c.offCfgaddr) :
    s.brRd32 off = { s with ans := s.br.cfgaddr, hist := s.hist ++ [.brRd off s.br.cfgaddr] } := by
  simp [State.brRd32, State.answered, State.brFixed_cfgaddr h hc e]

theorem State.brWr32_cfgaddr {c : Cfg} (h : c.Wf) {s : State} {off : Half} (hc : s.cfg = c) (e : off = c.offCfgaddr) (v : Word) :
    s.brWr32 off v = { s with br := { s.br with cfgaddr := v }, hist := s.hist ++ [.brWr off v] } := by
  have := h.brDistinct; subst hc e; simp [State.brWr32, BrRegs.write_cfgaddr h, *]

theorem State.brMod32_cfgaddr {c : Cfg} (h : c.Wf) {s : State} {off : Half} (hc : s.cfg = c) (e : off = c.offCfgaddr) (clr set : Word) :
    s.brMod32 off clr set = { s with
      br := { s.br with cfgaddr := modified s.br.cfgaddr clr set }, ans := s.br.cfgaddr,
      hist := s.hist ++ [.brRd off s.br.cfgaddr, .brWr off (modified s.br.cfgaddr clr set)] } := by
  refine (State.brWr32_cfgaddr h (s := s.brRd32 off) hc e _).trans ?_
  simp [State.brRd32_cfgaddr h hc e]

theorem State.brRd32_membase {c : Cfg} (h : c.Wf) {s : State} {off : Half} (hc : s.cfg = c) (e : off = c.offMembase) :
    s.brRd32 off = { s with ans := s.br.membase, hist := s.hist ++ [.brRd off s.br.membase] } := by
  simp [State.brRd32, State.answered, State.brFixed_membase h hc e]

theorem State.brWr32_membase {c : Cfg} (h : c.Wf) {s : State} {off : Half} (hc : s.cfg = c) (e : off = c.offMembase) (v : Word) :
    s.brWr32 off v = { s with br := { s.br with membase := v }, hist := s.hist ++ [.brWr off v] } := by
  have := h.brDistinct; subst hc e; simp [State.brWr32, BrRegs.write_membase h, *]

theorem State.brMod32_membase {c : Cfg} (h : c.Wf) {s : State} {off : Half} (hc : s.cfg = c) (e : off = c.offMembase) (clr set : Word) :
    s.brMod32 off clr set = { s with
      br := { s.br with membase := modified s.br.membase clr set }, ans := s.br.membase,
      hist := s.hist ++ [.brRd off s.br.membase, .brWr off (modified s.br.membase clr set)] } := by
  refine (State.brWr32_membase h (s := s.brRd32 off) hc e _).trans ?_
  simp [State.brRd32_membase h hc e]

theorem State.brRd32_iobase {c : Cfg} (h : c.Wf) {s : State} {off : Half} (hc : s.cfg = c) (e : off = c.offIobase) :
    s.brRd32 off = { s with ans := s.br.iobase, hist := s.hist ++ [.brRd off s.br.iobase] } := by
  simp [State.brRd32, State.answered, State.brFixed_iobase h hc e]

theorem State.brWr32_iobase {c : Cfg} (h : c.Wf) {s : State} {off : Half} (hc : s.cfg = c) (e : off = c.offIobase) (v : Word) :
    s.brWr32 off v = { s with br := { s.br with iobase := v }, hist := s.hist ++ [.brWr off v] } := by
  have := h.brDistinct; subst hc e; simp [State.brWr32, BrRegs.write_iobase h, *]

theorem State.brMod32_iobase {c : Cfg} (h : c.Wf) {s : State} {off : Half} (hc : s.cfg = c) (e : off = c.offIobase) (clr set : Word) :
    s.brMod32 off clr set = { s with
      br := { s.br with iobase := modified s.br.iobase clr set }, ans := s.br.iobase,
      hist := s.hist ++ [.brRd off s.br.iobase, .brWr off (modified s.br.iobase clr set)] } := by
  refine (State.brWr32_iobase h (s := s.brRd32 off) hc e _).trans ?_
  simp [State.brRd32_iobase h hc e]

theorem State.ssRd32_bar0setup {c : Cfg} (h : c.Wf) {s : State} {off : Half} (hc : s.cfg = c) (e : off = c.offBar0setup) :
    s.ssRd32 off = { s with ans := s.ss.bar0setup, hist := s.hist ++ [.ssRd off s.ss.bar0setup] } := by
  simp [State.ssRd32, State.answered, State.ssFixed_bar0setup h hc e]

theorem State.ssWr32_bar0setup {c : Cfg} (h : c.Wf) {s : State} {off : Half} (hc : s.cfg = c) (e : off = c.offBar0setup) (v : Word) :
    s.ssWr32 off v = { s with ss := { s.ss with bar0setup := v }, hist := s.hist ++ [.ssWr off v] } := by
  have := h.ssDistinct; subst hc e; simp [State.ssWr32, SsRegs.write_bar0setup h, *]

theorem State.ssRd32_imbasebar0 {c : Cfg} (h : c.Wf) {s : State} {off : Half} (hc : s.cfg = c) (e : off = c.offImbasebar0) :
    s.ssRd32 off = { s with ans := s.ss.imbasebar0, hist := s.hist ++ [.ssRd off s.ss.imbasebar0] } := by
  simp [State.ssRd32, State.answered, State.ssFixed_imbasebar0 h hc e]

theorem State.ssWr32_imbasebar0 {c : Cfg} (h : c.Wf) {s : State} {off : Half} (hc : s.cfg = c) (e : off = c.offImbasebar0) (v : Word) :
    s.ssWr32 off v = { s with ss := { s.ss with imbasebar0 := v }, hist := s.hist ++ [.ssWr off v] } := by
  have := h.ssDistinct; subst hc e; simp [State.ssWr32, SsRegs.write_imbasebar0 h, *]

theorem State.ssRd32_id {c : Cfg} (h : c.Wf) {s : State} {off : Half} (hc : s.cfg = c) (e : off = c.offId) :
    s.ssRd32 off = { s with ans := s.ss.id, hist := s.hist ++ [.ssRd off s.ss.id] } := by
  simp [State.ssRd32, State.answered, State.ssFixed_id h hc e]

theorem State.ssWr32_id {c : Cfg} (h : c.Wf) {s : State} {off : Half} (hc : s.cfg = c) (e : off = c.offId) (v : Word) :
    s.ssWr32 off v = { s with ss := { s.ss with id := v }, hist := s.hist ++ [.ssWr off v] } := by
  have := h.ssDistinct; subst hc e; simp [State.ssWr32, SsRegs.write_id h, *]

theorem State.ssRd32_cls {c : Cfg} (h : c.Wf) {s : State} {off : Half} (hc : s.cfg = c) (e : off = c.offClass) :
    s.ssRd32 off = { s with ans := s.ss.cls, hist := s.hist ++ [.ssRd off s.ss.cls] } := by
  simp [State.ssRd32, State.answered, State.ssFixed_cls h hc e]

theorem State.ssWr32_cls {c : Cfg} (h : c.Wf) {s : State} {off : Half} (hc : s.cfg = c) (e : off = c.offClass) (v : Word) :
    s.ssWr32 off v = { s with ss := { s.ss with cls := v }, hist := s.hist ++ [.ssWr off v] } := by
  have := h.ssDistinct; subst hc e; simp [State.ssWr32, SsRegs.write_cls h, *]

theorem State.ssRd32_subid {c : Cfg} (h : c.Wf) {s : State} {off : Half} (hc : s.cfg = c) (e : off = c.offSubid) :
    s.ssRd32 off = { s with ans := s.ss.subid, hist := s.hist ++ [.ssRd off s.ss.subid] } := by
  simp [State.ssRd32, State.answered, State.ssFixed_subid h hc e]

theorem State.ssWr32_subid {c : Cfg} (h : c.Wf) {s : State} {off : Half} (hc : s.cfg = c) (e : off = c.offSubid) (v : Word) :
    s.ssWr32 off v = { s with ss := { s.ss with subid := v }, hist := s.hist ++ [.ssWr off v] } := by
  have := h.ssDistinct; subst hc e; simp [State.ssWr32, SsRegs.write_subid h, *]

theorem State.scMod32_syscfg1 {c : Cfg} (h : c.Wf) {s : State} {off : Half} (hc : s.cfg = c) (e : off = c.offSyscfg1) (clr set : Word) :
    s.scMod32 off clr set = { s with
      sc := { s.sc with syscfg1 := modified s.sc.syscfg1 clr set }, hist := s.hist ++ [.scMod off clr set] } := by
  subst hc e; simp [State.scMod32, ScRegs.modify_syscfg1 h]

theorem State.scMod32_clkcfg1 {c : Cfg} (h : c.Wf) {s : State} {off : Half} (hc : s.cfg = c) (e : off = c.offClkcfg1) (clr set : Word) :
    s.scMod32 off clr set = { s with
      sc := { s.sc with clkcfg1 := modified s.sc.clkcfg1 clr set }, hist := s.hist ++ [.scMod off clr set] } := by
  subst hc e; simp [State.scMod32, ScRegs.modify_clkcfg1 h]

theorem State.scMod32_gpiomode {c : Cfg} (h : c.Wf) {s : State} {off : Half} (hc : s.cfg = c) (e : off = c.offGpiomode) (clr set : Word) :
    s.scMod32 off clr set = { s with
      sc := { s.sc with gpiomode := modified s.sc.gpiomode clr set }, hist := s.hist ++ [.scMod off clr set] } := by
  subst hc e; simp [State.scMod32, ScRegs.modify_gpiomode h]

theorem State.scMod32_clkgen0 {c : Cfg} (h : c.Wf) {s : State} {off : Half} (hc : s.cfg = c) (e : off = c.offClkgen0) (clr set : Word) :
    s.scMod32 off clr set = { s with
      sc := { s.sc with clkgen0 := modified s.sc.clkgen0 clr set }, hist := s.hist ++ [.scMod off clr set] } := by
  subst hc e; simp [State.scMod32, ScRegs.modify_clkgen0 h]

theorem State.scMod32_clkgen1 {c : Cfg} (h : c.Wf) {s : State} {off : Half} (hc : s.cfg = c) (e : off = c.offClkgen1) (clr set : Word) :
    s.scMod32 off clr set = { s with
      sc := { s.sc with clkgen1 := modified s.sc.clkgen1 clr set }, hist := s.hist ++ [.scMod off clr set] } := by
  subst hc e; simp [State.scMod32, ScRegs.modify_clkgen1 h]

theorem State.scMod32_pplldrv {c : Cfg} (h : c.Wf) {s : State} {off : Half} (hc : s.cfg = c) (e : off = c.offPplldrv) (clr set : Word) :
    s.scMod32 off clr set = { s with
      sc := { s.sc with pplldrv := modified s.sc.pplldrv clr set }, hist := s.hist ++ [.scMod off clr set] } := by
  subst hc e; simp [State.scMod32, ScRegs.modify_pplldrv h]

@[simp] theorem modified_zero_clr (v set : Word) : modified v 0#32 set = v ||| set := by
  rw [modified, show ~~~(0#32 : Word) = BitVec.allOnes 32 from rfl, BitVec.and_allOnes]

@[simp] theorem modified_zero_set (v clr : Word) : modified v clr 0#32 = v &&& ~~~clr := by
  simp [modified]

/-- A read that no rule fixes takes the next draw. -/
theorem State.answered_none (s : State) (ev : Word → Event) :
    s.answered none ev = { s.afterDraws 1 with ans := s.drawAt 0, hist := s.hist ++ [ev (s.drawAt 0)] } := by
  simp [State.answered, State.afterDraws, State.drawAt, State.nextDraw]

theorem State.ssRd32_phycfg (s : State) :
    s.ssRd32 s.cfg.offPhycfg =
      { s.afterDraws 1 with ans := s.drawAt 0, hist := s.hist ++ [.ssRd s.cfg.offPhycfg (s.drawAt 0)] } := by
  rw [State.ssRd32, State.ssFixed_phycfg, State.answered_none]

theorem State.ssRd32_status (s : State) :
    s.ssRd32 s.cfg.offStatus =
      { s.afterDraws 1 with ans := s.drawAt 0, hist := s.hist ++ [.ssRd s.cfg.offStatus (s.drawAt 0)] } := by
  rw [State.ssRd32, State.ssFixed_status, State.answered_none]

theorem State.scRd32_ppllcfg1 (s : State) :
    s.scRd32 s.cfg.offPpllcfg1 =
      { s.afterDraws 1 with ans := s.drawAt 0, hist := s.hist ++ [.scRd s.cfg.offPpllcfg1 (s.drawAt 0)] } := by
  rw [State.scRd32, State.scFixed_ppllcfg1, State.answered_none]

end Sys2Proof.Machine
end

