-- ==== Sys2Proof/Laws/Words.lean ====
section
/-! SUPPORT. Word-level laws: the fields of an assembled word are the operands it was assembled from (encodings, the address token, the PHY control
word), and the lane operations byte by byte. -/

namespace Sys2Proof

theorem extract_append_low {w n : Nat} (hi : BitVec n) (lo : BitVec w) : (hi ++ lo).extractLsb' 0 w = lo := by
  ext i h; simp [BitVec.getLsbD_append, h]

theorem extract_append_high {w n : Nat} (s k m : Nat) (hi : BitVec n) (lo : BitVec w) (hm : m = w + s) :
    (hi ++ lo).extractLsb' m k = hi.extractLsb' s k := by
  subst hm
  ext i h
  simp only [BitVec.getElem_extractLsb', BitVec.getLsbD_append]
  rw [if_neg (by omega), show w + s + i - w = s + i by omega]

theorem extract_append_top {w n : Nat} (m : Nat) (hi : BitVec n) (lo : BitVec w) (hm : m = w) : (hi ++ lo).extractLsb' m n = hi := by
  subst hm
  ext i h; simp [BitVec.getLsbD_append, h]

/-- R151: the fields of an assembled command word. -/
theorem encodeCommand_fields (op : BitVec 4) (wdata : Word) (bus devfn : Byte) (off : BitVec 12) :
    (encodeCommand op wdata bus devfn off).extractLsb' 0 4 = op ∧ (encodeCommand op wdata bus devfn off).extractLsb' 4 12 = off ∧
    (encodeCommand op wdata bus devfn off).extractLsb' 16 8 = devfn ∧ (encodeCommand op wdata bus devfn off).extractLsb' 24 8 = bus ∧
    (encodeCommand op wdata bus devfn off).extractLsb' 32 32 = wdata := by
  unfold encodeCommand
  refine ⟨extract_append_low _ _, ?_, ?_, ?_, ?_⟩
  · rw [extract_append_high 0 12 4 _ _ rfl, extract_append_low]
  · rw [extract_append_high 12 8 16 _ _ rfl, extract_append_high 0 8 12 _ _ rfl, extract_append_low]
  · rw [extract_append_high 20 8 24 _ _ rfl, extract_append_high 8 8 20 _ _ rfl, extract_append_high 0 8 8 _ _ rfl, extract_append_low]
  · rw [extract_append_high 28 32 32 _ _ rfl, extract_append_high 16 32 28 _ _ rfl, extract_append_high 8 32 16 _ _ rfl,
      extract_append_top 8 _ _ rfl]

/-- R151: a command word is assembled from its fields. -/
theorem encodeCommand_eta (w : BitVec 64) :
    encodeCommand (w.extractLsb' 0 4) (w.extractLsb' 32 32) (w.extractLsb' 24 8) (w.extractLsb' 16 8) (w.extractLsb' 4 12) = w := by
  unfold encodeCommand; grind

/-- R160: the fields of an assembled master-port word. -/
theorem encodeMaster_fields (k : BitVec 4) (a : Half) (x y : Word) :
    (encodeMaster k a x y).extractLsb' 0 4 = k ∧ (encodeMaster k a x y).extractLsb' 4 16 = a ∧
    (encodeMaster k a x y).extractLsb' 20 32 = x ∧ (encodeMaster k a x y).extractLsb' 52 32 = y := by
  unfold encodeMaster
  refine ⟨extract_append_low _ _, ?_, ?_, ?_⟩
  · rw [extract_append_high 0 16 4 _ _ rfl, extract_append_low]
  · rw [extract_append_high 16 32 20 _ _ rfl, extract_append_high 0 32 16 _ _ rfl, extract_append_low]
  · rw [extract_append_high 48 32 52 _ _ rfl, extract_append_high 32 32 48 _ _ rfl, extract_append_top 32 _ _ rfl]

/-- R161: the fields of an assembled traffic-port word. -/
theorem encodeTraffic_fields (k : BitVec 2) (a : Word) :
    (encodeTraffic k a).extractLsb' 0 2 = k ∧ (encodeTraffic k a).extractLsb' 2 32 = a :=
  ⟨extract_append_low _ _, extract_append_top 2 _ _ rfl⟩

/-- R161: a traffic-port word is assembled from its fields. -/
theorem encodeTraffic_eta (w : BitVec 34) : encodeTraffic (w.extractLsb' 0 2) (w.extractLsb' 2 32) = w := by
  unfold encodeTraffic; grind

/-- R17 (d): the enable bit is none of the bits 2 to 27. -/
theorem Cfg.Wf.tokenEn_low {c : Cfg} (h : c.Wf) (i : Nat) (h2 : 2 ≤ i) (h28 : i < 28) : c.tokenEn.getLsbD i = false := by
  have e := congrArg (fun v : Word => v.getLsbD i) h.2.2.1.2.1
  simp only [BitVec.getLsbD_and] at e
  have : ∀ j : Fin 32, 2 ≤ j.val → j.val < 28 → (0x0FFFFFFC : Word).getLsbD j.val = true := by decide
  rw [this ⟨i, by omega⟩ h2 h28, Bool.and_true] at e
  exact e.trans (BitVec.getLsbD_zero ..)

end Sys2Proof

namespace Sys2Proof.Machine

/-- R311: the bits of a token. -/
theorem token_getLsbD (c : Cfg) (bus devfn : Byte) (off : BitVec 12) (i : Nat) (hi : i < 32) :
    (token c bus devfn off).getLsbD i =
      ((if i < 2 then false
        else if i < 8 then off.getLsbD i
        else if i < 16 then devfn.getLsbD (i - 8)
        else if i < 24 then bus.getLsbD (i - 16)
        else if i < 28 then off.getLsbD (i - 24 + 8)
        else false) || c.tokenEn.getLsbD i) := by
  unfold token slotOf funcOf
  have : i = 0 ∨ i = 1 ∨ i = 2 ∨ i = 3 ∨ i = 4 ∨ i = 5 ∨ i = 6 ∨ i = 7 ∨ i = 8 ∨ i = 9 ∨ i = 10 ∨ i = 11 ∨ i = 12 ∨ i = 13 ∨ i = 14 ∨ i = 15 ∨
    i = 16 ∨ i = 17 ∨ i = 18 ∨ i = 19 ∨ i = 20 ∨ i = 21 ∨ i = 22 ∨ i = 23 ∨ i = 24 ∨ i = 25 ∨ i = 26 ∨ i = 27 ∨ i = 28 ∨ i = 29 ∨ i = 30 ∨
    i = 31 := by omega
  rcases this with h | h | h | h | h | h | h | h | h | h | h | h | h | h | h | h | h | h | h | h | h | h | h | h | h | h | h | h | h | h | h | h <;>
    subst h <;> simp

/-- R311: the fields of a token. -/
theorem token_fields {c : Cfg} (h : c.Wf) (bus devfn : Byte) (off : BitVec 12) :
    (token c bus devfn off).extractLsb' 2 6 = off.extractLsb' 2 6 ∧ (token c bus devfn off).extractLsb' 8 8 = devfn ∧
    (token c bus devfn off).extractLsb' 16 8 = bus ∧ (token c bus devfn off).extractLsb' 24 4 = off.extractLsb' 8 4 := by
  refine ⟨?_, ?_, ?_, ?_⟩ <;> ext i hi <;> rw [BitVec.getElem_extractLsb', token_getLsbD _ _ _ _ _ (by omega), h.tokenEn_low _ (by omega) (by omega)] <;>
    simp only [Bool.or_false, BitVec.getElem_extractLsb']
  · rw [if_neg (by omega), if_pos (by omega)]
  · rw [if_neg (by omega), if_neg (by omega), if_pos (by omega), show 8 + i - 8 = i by omega, BitVec.getLsbD_eq_getElem hi]
  · rw [if_neg (by omega), if_neg (by omega), if_neg (by omega), if_pos (by omega), show 16 + i - 16 = i by omega, BitVec.getLsbD_eq_getElem hi]
  · rw [if_neg (by omega), if_neg (by omega), if_neg (by omega), if_neg (by omega), if_pos (by omega), show 24 + i - 24 + 8 = 8 + i by omega]

/-- R42, R67: a token selects the location of its operands. -/
theorem cfgLoc_token {c : Cfg} (h : c.Wf) (bus devfn : Byte) (off : BitVec 12) : cfgLoc (token c bus devfn off) = locOf bus devfn off := by
  obtain ⟨h1, h2, h3, h4⟩ := token_fields h bus devfn off
  rw [cfgLoc, h1, h2, h3, h4, locOf]
  grind

/-- R311: the enable bit is set in every token. -/
theorem token_and_en (c : Cfg) (bus devfn : Byte) (off : BitVec 12) : token c bus devfn off &&& c.tokenEn = c.tokenEn := by
  ext i hi
  rw [BitVec.getElem_and, ← BitVec.getLsbD_eq_getElem hi, ← BitVec.getLsbD_eq_getElem hi, token_getLsbD _ _ _ _ _ hi]
  cases c.tokenEn.getLsbD i <;> simp

/-- R311: no other bit than those of the fields and the enable bit is set in a token. -/
theorem token_and_rest (c : Cfg) (bus devfn : Byte) (off : BitVec 12) :
    token c bus devfn off &&& ~~~(0x0FFFFFFC ||| c.tokenEn) = 0 := by
  have mask : ∀ j : Fin 32, (0x0FFFFFFC : Word).getLsbD j.val = (decide (2 ≤ j.val) && decide (j.val < 28)) := by decide
  ext i hi
  rw [BitVec.getElem_and, ← BitVec.getLsbD_eq_getElem hi, ← BitVec.getLsbD_eq_getElem hi, token_getLsbD _ _ _ _ _ hi, BitVec.getLsbD_not,
    BitVec.getLsbD_or, mask ⟨i, hi⟩]
  show _ = (0#32 : Word)[i]
  rw [BitVec.getElem_zero]
  cases c.tokenEn.getLsbD i
  · by_cases h2 : i < 2
    · simp [h2]
    · by_cases h28 : i < 28
      · simp [h28, show 2 ≤ i by omega]
      · simp [h28, h2, show ¬ i < 8 by omega, show ¬ i < 16 by omega, show ¬ i < 24 by omega]
  · simp

/-- R42: a token selects a location. -/
theorem cfgSelected_token {c : Cfg} (h : c.Wf) (bus devfn : Byte) (off : BitVec 12) : cfgSelected c (token c bus devfn off) = true := by
  have h0 : c.tokenEn ≠ 0 := h.2.2.1.1.1
  simp only [cfgSelected, token_and_en, token_and_rest, bne_iff_ne, Bool.and_eq_true, beq_self_eq_true, and_true]
  exact h0

/-- R165: the lane shift. -/
theorem laneShift_toNat (off : BitVec 12) : (laneShift off).toNat = 8 * (off.toNat % 4) := by
  unfold laneShift laneOf
  simp only [BitVec.toNat_ofNat, BitVec.extractLsb'_toNat, Nat.shiftRight_zero]
  omega

/-- R165: the lane mask. -/
theorem laneMask_eq (w : Width) : laneMask w = BitVec.ofNat 32 (2 ^ (8 * widthBytes w) - 1) := by
  cases w <;> rfl

/-- R318: the lanes an access covers, in the low bits. -/
theorem laneExtract_eq (dw : Word) (off : BitVec 12) (w : Width) :
    laneExtract dw off w = BitVec.ofNat 32 (dw.toNat / 2 ^ (8 * firstLane w off) % 2 ^ (8 * widthBytes w)) := by
  have key : ∀ (x : Word) (n : Nat), n ≤ 32 → x &&& BitVec.ofNat 32 (2 ^ n - 1) = BitVec.ofNat 32 (x.toNat % 2 ^ n) := by
    intro x n hn
    apply BitVec.eq_of_toNat_eq
    have : 2 ^ n ≤ 2 ^ 32 := Nat.pow_le_pow_right (by decide) hn
    have hp : 0 < 2 ^ n := Nat.two_pow_pos n
    rw [BitVec.toNat_and, BitVec.toNat_ofNat, BitVec.toNat_ofNat, Nat.mod_eq_of_lt (by omega), Nat.and_two_pow_sub_one_eq_mod,
      Nat.mod_eq_of_lt (Nat.lt_of_lt_of_le (Nat.mod_lt _ hp) this)]
  cases w
  case dword => simp only [laneExtract, firstLane, widthBytes, Nat.mul_zero, Nat.pow_zero, Nat.div_one]; rw [Nat.mod_eq_of_lt dw.isLt]; simp
  all_goals
    simp only [laneExtract, laneMask_eq, laneShift_toNat, firstLane]
    rw [key _ _ (by decide), BitVec.toNat_ushiftRight, Nat.shiftRight_eq_div_pow]

/-- R165: the bits of the lane mask before shifting. -/
theorem laneMask_getLsbD (w : Width) (j : Nat) : (laneMask w).getLsbD j = decide (j < 8 * widthBytes w) := by
  have : 8 * widthBytes w ≤ 32 := by cases w <;> decide
  rw [laneMask_eq, BitVec.getLsbD_ofNat, Nat.testBit_two_pow_sub_one]
  by_cases h : j < 8 * widthBytes w
  · simp [h]; omega
  · simp [h]

/-- R315, R316: the bits of the lane mask in place. -/
theorem laneMaskAt_getLsbD (off : BitVec 12) (w : Width) (hw : w ≠ .dword) (i : Nat) (hi : i < 32) :
    (laneMaskAt off w).getLsbD i = covers w off (i / 8) := by
  have f : firstLane w off = off.toNat % 4 := by cases w <;> first | rfl | exact absurd rfl hw
  rw [laneMaskAt, BitVec.getLsbD_shiftLeft, laneMask_getLsbD, laneShift_toNat, covers, f]
  simp only [hi, decide_true, Bool.true_and]
  by_cases h : i < 8 * (off.toNat % 4)
  · simp [h]; omega
  · simp only [h, decide_false, Bool.not_false, Bool.true_and]
    rw [Bool.eq_iff_iff]; simp; omega

/-- R319, R320: the bytes of a merged dword: the value's where covered, the old ones elsewhere. -/
theorem laneMerge_laneByte (dw v : Word) (off : BitVec 12) (w : Width) (hw : w ≠ .dword) (k : Nat) (hk : k < 4) :
    laneByte (laneMerge dw off w v) k = writtenByte w off dw v k := by
  have f : firstLane w off = off.toNat % 4 := by cases w <;> first | rfl | exact absurd rfl hw
  ext i hi
  have hi' : 8 * k + i < 32 := by omega
  have hd : (8 * k + i) / 8 = k := by omega
  rw [laneByte, BitVec.getElem_extractLsb', laneMerge, BitVec.getLsbD_or, BitVec.getLsbD_and, BitVec.getLsbD_not,
    laneMaskAt_getLsbD off w hw _ hi', hd, BitVec.getLsbD_shiftLeft, BitVec.getLsbD_and, laneMask_getLsbD, laneShift_toNat, writtenByte]
  by_cases c : covers w off k = true
  · rw [if_pos c, laneByte, BitVec.getElem_extractLsb']
    simp only [covers, f, Bool.and_eq_true, decide_eq_true_eq] at c
    simp only [covers, f, c, hi', decide_true, Bool.and_self, Bool.not_true, Bool.and_false, Bool.false_or, Bool.true_and]
    rw [show 8 * k + i - 8 * (off.toNat % 4) = 8 * (k - off.toNat % 4) + i by omega,
      decide_eq_false (show ¬ 8 * k + i < 8 * (off.toNat % 4) by omega),
      decide_eq_true (show 8 * (k - off.toNat % 4) + i < 8 * widthBytes w by omega)]
    simp
  · have c' := c
    rw [if_neg c, laneByte, BitVec.getElem_extractLsb']
    simp only [covers, f, Bool.and_eq_true, decide_eq_true_eq] at c
    rw [Bool.not_eq_true] at c'
    simp only [c', hi', decide_true, Bool.not_false, Bool.and_true, Bool.true_and]
    by_cases h : 8 * k + i < 8 * (off.toNat % 4)
    · simp [h]
    · simp [show ¬(8 * k + i - 8 * (off.toNat % 4) < 8 * widthBytes w) by omega]

/-- R17 (c): a field mask meets none of the bits that another mask holds. -/
theorem bit_clear_of_disjoint (m : Word) (n i : Nat) (hi : i < 8) (hn : n ≤ 24) (h : m &&& ((0xFF : Word) <<< n) = 0) :
    m.getLsbD (n + i) = false := by
  have e := congrArg (fun v : Word => v.getLsbD (n + i)) h
  have f : ∀ j : Fin 8, (0xFF : Word).getLsbD j.val = true := by decide
  simp only [BitVec.getLsbD_and, BitVec.getLsbD_shiftLeft, show n + i - n = i by omega, f ⟨i, hi⟩, show n + i < 32 by omega,
    show ¬ n + i < n by omega, decide_true, decide_false, Bool.not_false, Bool.and_true] at e
  exact e.trans (BitVec.getLsbD_zero ..)

/-- R158: the control word of CALIBRATE asks for a write. -/
theorem phyIsWrite_phyControl (c : Cfg) (a d : Byte) : phyIsWrite c (phyControl c a d) = true := by
  simp only [phyIsWrite, phyControl, beq_iff_eq]
  ext i hi
  simp only [BitVec.getElem_and, BitVec.getElem_or]
  cases c.phyWriteMode[i] <;> simp

/-- R158: the control word of CALIBRATE names the PHY register `a` and the value `d`. -/
theorem phyRequest_phyControl {c : Cfg} (h : c.Wf) (a d : Byte) : phyRequest c (phyControl c a d) = ⟨a, d, false⟩ := by
  obtain ⟨ha, hd, -, -, -, h1, h2, h3⟩ := h.2.1
  have far : ∀ (x : Byte) (p q i : Nat), p ≤ 24 → q ≤ 24 → i < 8 → ((0xFF : Word) <<< p) &&& ((0xFF : Word) <<< q) = 0 →
      ((x.zeroExtend 32 : Word) <<< p).getLsbD (q + i) = false := by
    intro x p q i hp hq hi hh
    have b := bit_clear_of_disjoint _ q i hi hq hh
    simp only [BitVec.getLsbD_shiftLeft, show q + i < 32 by omega, decide_true, Bool.true_and] at b ⊢
    by_cases l : q + i < p
    · simp [l]
    · have : 8 ≤ q + i - p := by
        rcases Nat.lt_or_ge (q + i - p) 8 with g | g
        · have f : ∀ j : Fin 8, (0xFF : Word).getLsbD j.val = true := by decide
          simp only [l, f ⟨q + i - p, g⟩, decide_false, Bool.not_false, Bool.and_true] at b
          exact absurd b (by decide)
        · exact g
      simp only [BitVec.getLsbD_setWidth]
      rw [BitVec.getLsbD_of_ge x _ this]
      simp
  have near : ∀ (x : Byte) (p i : Nat), p ≤ 24 → i < 8 → ((x.zeroExtend 32 : Word) <<< p).getLsbD (p + i) = x.getLsbD i := by
    intro x p i hp hi
    simp only [BitVec.getLsbD_shiftLeft, BitVec.getLsbD_setWidth, show p + i - p = i by omega]
    rw [decide_eq_true (show p + i < 32 by omega), decide_eq_false (show ¬ p + i < p by omega), decide_eq_true (show i < 32 by omega)]
    simp
  simp only [phyRequest, phyControl, PhyReq.mk.injEq, and_true]
  constructor
  · ext i hi
    rw [BitVec.getElem_extractLsb', Nat.zero_add, BitVec.getLsbD_ushiftRight, BitVec.getLsbD_or, BitVec.getLsbD_or,
      bit_clear_of_disjoint _ _ i hi ha h1, near a _ i ha hi, far d _ _ i hd ha hi (by rw [BitVec.and_comm]; exact h3)]
    simp [BitVec.getLsbD_eq_getElem hi]
  · ext i hi
    rw [BitVec.getElem_extractLsb', Nat.zero_add, BitVec.getLsbD_ushiftRight, BitVec.getLsbD_or, BitVec.getLsbD_or,
      bit_clear_of_disjoint _ _ i hi hd h2, near d _ i hd hi, far a _ _ i ha hd hi h3]
    simp [BitVec.getLsbD_eq_getElem hi]

end Sys2Proof.Machine
end

