-- ==== Sys2Proof/Laws/ConfigAccess.lean ====
section
/-! SUPPORT. The configuration access protocol in closed form: what selecting, reading and writing a location leave, once for every caller. -/

namespace Sys2Proof.Machine

/-- R104: natural alignment, as a remainder. -/
theorem aligned_eq (w : Width) (off : BitVec 12) : aligned w off = decide (off.toNat % widthBytes w = 0) := by
  have : ∀ o : BitVec 12, aligned .half o = decide (o.toNat % 2 = 0) ∧ aligned .dword o = decide (o.toNat % 4 = 0) := by
    intro o
    simp only [aligned]
    constructor <;> rw [Bool.eq_iff_iff] <;>
      simp only [beq_iff_eq, ← BitVec.toNat_inj, BitVec.extractLsb'_toNat, decide_eq_true_eq, Nat.shiftRight_zero, BitVec.toNat_ofNat]
  cases w
  · simp [aligned, widthBytes, Nat.mod_one]
  · exact (this off).1
  · exact (this off).2

/-- R102: one byte of the store after a dword write, lane by lane. -/
theorem Memory.read_writeDword_lane (u : Nat → Byte) (m : List Host.Cell) (loc : BitVec 26) (v : Word) (a : Nat) (h : Memory.wf u m = true) :
    Memory.read u (Memory.writeDword u m loc v) a = if a / 4 = loc.toNat then laneByte v (a % 4) else Memory.read u m a := by
  rw [Memory.read_writeDword _ _ _ _ _ h]
  have la : locAddr loc = 4 * loc.toNat := rfl
  by_cases e : a / 4 = loc.toNat
  · rw [if_pos e]
    have h4 : a % 4 = 0 ∨ a % 4 = 1 ∨ a % 4 = 2 ∨ a % 4 = 3 := by omega
    rcases h4 with h4 | h4 | h4 | h4 <;> simp only [h4]
    · rw [if_neg (by omega), if_neg (by omega), if_neg (by omega), if_pos (by omega)]; rfl
    · rw [if_neg (by omega), if_neg (by omega), if_pos (by omega)]; rfl
    · rw [if_neg (by omega), if_pos (by omega)]; rfl
    · rw [if_pos (by omega)]; rfl
  · rw [if_neg e, if_neg (by omega), if_neg (by omega), if_neg (by omega), if_neg (by omega)]

/-- R102: the bytes of the dword at a plain location. -/
theorem State.laneByte_dwordAt {s : State} {loc : BitVec 26} (hp : s.isPlain loc) (k : Nat) (hk : k < 4) :
    laneByte (s.dwordAt loc) k = s.cfgByte (4 * loc.toNat + k) := by
  simp only [State.dwordAt, hp]
  have : k = 0 ∨ k = 1 ∨ k = 2 ∨ k = 3 := by omega
  rcases this with h | h | h | h <;> subst h <;> simp only [laneByte, if_true, Nat.mul_zero, Nat.add_zero, Nat.mul_one]
  · exact extract_append_low _ _
  · rw [extract_append_high 0 8 8 _ _ rfl, extract_append_low]
  · rw [extract_append_high 8 8 16 _ _ rfl, extract_append_high 0 8 8 _ _ rfl, extract_append_low]
  · rw [extract_append_high 16 8 24 _ _ rfl, extract_append_high 8 8 16 _ _ rfl, extract_append_top 8 _ _ rfl]

/-- How many draws a read of a location takes: one where no rule fixes its dword. -/
abbrev State.readDraws (s : State) (loc : BitVec 26) : Nat := if rootHdrReg s.cfg loc = none ∧ loc ∉ s.plain then 1 else 0

/-- R67, R326: the dword of a location is the fixed one, or the next draw. -/
theorem State.cfgFixed_getD (s : State) (loc : BitVec 26) : (s.cfgFixed loc).getD s.nextDraw = s.dwordAt loc := by
  unfold State.cfgFixed State.dwordAt
  cases rootHdrReg s.cfg loc with
  | some k => cases k <;> rfl
  | none =>
    simp only [List.contains_iff_mem]
    split <;> rfl

theorem State.cfgFixed_isNone (s : State) (loc : BitVec 26) :
    (s.cfgFixed loc).isNone = decide (rootHdrReg s.cfg loc = none ∧ loc ∉ s.plain) := by
  unfold State.cfgFixed
  cases rootHdrReg s.cfg loc with
  | some k => simp
  | none =>
    simp only [List.contains_iff_mem]
    split <;> simp_all

/-- R110, R42: a read of CFGDATA with a token in CFGADDR. -/
theorem State.brRd32_cfgdata {c : Cfg} (h : c.Wf) {s : State} (hc : s.cfg = c) {bus devfn : Byte} {off : BitVec 12}
    (ht : s.br.cfgaddr = token c bus devfn off) :
    s.brRd32 c.offCfgdata =
      { s.afterDraws (s.readDraws (locOf bus devfn off)) with
        ans := s.dwordAt (locOf bus devfn off)
        hist := s.hist ++ [.brRd c.offCfgdata (s.dwordAt (locOf bus devfn off))] } := by
  subst hc
  have hf : s.brFixed s.cfg.offCfgdata = s.cfgFixed (locOf bus devfn off) := by
    simp [State.brFixed, State.cfgdataFixed, ht, cfgSelected_token h, cfgLoc_token h]
  rw [State.brRd32, hf, State.answered, State.cfgFixed_getD, State.cfgFixed_isNone]
  by_cases hp : rootHdrReg s.cfg (locOf bus devfn off) = none ∧ locOf bus devfn off ∉ s.plain
  · simp [hp, State.afterDraws, State.readDraws]
  · simp only [hp, decide_false, Bool.false_eq_true, if_false, State.afterDraws, State.readDraws, List.drop_zero, Nat.add_zero]

/-- R42, R67: what a write of CFGDATA with a token in CFGADDR leaves in the store. -/
theorem State.cfgStore_token {c : Cfg} (h : c.Wf) {s : State} (hc : s.cfg = c) {bus devfn : Byte} {off : BitVec 12}
    (ht : s.br.cfgaddr = token c bus devfn off) (v : Word) :
    s.cfgStore v = if s.isPlain (locOf bus devfn off) then Memory.writeDword s.unlisted s.mem (locOf bus devfn off) v else s.mem := by
  subst hc
  simp only [State.cfgStore, ht, cfgSelected_token h, cfgLoc_token h, Bool.true_and, Bool.and_eq_true, Option.isNone_iff_eq_none,
    List.contains_iff_mem]

/-- R42, R191: a write of CFGDATA with a token in CFGADDR. -/
theorem State.brWr32_cfgdata {c : Cfg} (h : c.Wf) {s : State} (hc : s.cfg = c) {bus devfn : Byte} {off : BitVec 12}
    (ht : s.br.cfgaddr = token c bus devfn off) (v : Word) :
    s.brWr32 c.offCfgdata v = { s with
      mem := if s.isPlain (locOf bus devfn off) then Memory.writeDword s.unlisted s.mem (locOf bus devfn off) v else s.mem
      hist := s.hist ++ [.brWr c.offCfgdata v] } := by
  subst hc
  rw [State.brWr32, BrRegs.write_cfgdata h, if_pos rfl, State.cfgStore_token h rfl ht]

/-- R310 (1), (2): the selection of a location. -/
theorem State.cfgSelect_eq {c : Cfg} (h : c.Wf) {s : State} (hc : s.cfg = c) (bus devfn : Byte) (off : BitVec 12) :
    s.cfgSelect bus devfn off = { s with
      work := { s.work with tok := token c bus devfn off }
      br := { s.br with cfgaddr := token c bus devfn off }
      hist := s.hist ++ [.brWr c.offCfgaddr (token c bus devfn off)] } := by
  subst hc
  have := h.brDistinct
  simp [State.cfgSelect, State.brWr32, BrRegs.write_cfgaddr h, *]

/-- R312 to R316: the dword of a location fetched into x[DW]. -/
theorem State.cfgFetch_eq {c : Cfg} (h : c.Wf) {s : State} (hc : s.cfg = c) (bus devfn : Byte) (off : BitVec 12) :
    s.cfgFetch bus devfn off = { s.afterDraws (s.readDraws (locOf bus devfn off)) with
      work := { s.work with tok := token c bus devfn off, dw := s.dwordAt (locOf bus devfn off) }
      br := { s.br with cfgaddr := token c bus devfn off }
      ans := s.dwordAt (locOf bus devfn off)
      hist := s.hist ++ [.brWr c.offCfgaddr (token c bus devfn off), .brRd c.offCfgdata (s.dwordAt (locOf bus devfn off))] } := by
  subst hc
  simp only [State.cfgFetch]
  rw [State.brRd32_cfgdata h (s := s.cfgSelect bus devfn off) (bus := bus) (devfn := devfn) (off := off)
    (by rw [State.cfgSelect_eq h rfl]) (by rw [State.cfgSelect_eq h rfl]), State.cfgSelect_eq h rfl]
  simp [State.afterDraws, State.dwordAt, State.readDraws, State.nextDraw, State.cfgByte, State.unlisted_eq]

/-- R312 to R314: the body of a configuration read. -/
theorem State.cfgRead_eq {c : Cfg} (h : c.Wf) {s : State} (hc : s.cfg = c) (w : Width) (bus devfn : Byte) (off : BitVec 12) :
    s.cfgRead w bus devfn off = { s.afterDraws (s.readDraws (locOf bus devfn off)) with
      work := { s.work with
        tok := token c bus devfn off
        dw := s.dwordAt (locOf bus devfn off)
        sh := if w = .dword then s.work.sh else laneShift off }
      br := { s.br with cfgaddr := token c bus devfn off }
      ans := s.dwordAt (locOf bus devfn off)
      hist := s.hist ++ [.brWr c.offCfgaddr (token c bus devfn off), .brRd c.offCfgdata (s.dwordAt (locOf bus devfn off))] } := by
  cases w <;> simp [State.cfgRead, State.cfgFetch_eq h hc]

/-- R317: the body of a dword configuration write. -/
theorem State.cfgWrite_dword {c : Cfg} (h : c.Wf) {s : State} (hc : s.cfg = c) (bus devfn : Byte) (off : BitVec 12) (v : Word) :
    s.cfgWrite .dword bus devfn off v = { s with
      work := { s.work with tok := token c bus devfn off }
      br := { s.br with cfgaddr := token c bus devfn off }
      mem := if s.isPlain (locOf bus devfn off) then Memory.writeDword s.unlisted s.mem (locOf bus devfn off) v else s.mem
      hist := s.hist ++ [.brWr c.offCfgaddr (token c bus devfn off), .brWr c.offCfgdata v] } := by
  subst hc
  simp only [State.cfgWrite]
  rw [State.brWr32_cfgdata h (s := s.cfgSelect bus devfn off) (bus := bus) (devfn := devfn) (off := off)
    (by rw [State.cfgSelect_eq h rfl]) (by rw [State.cfgSelect_eq h rfl]), State.cfgSelect_eq h rfl]
  simp [State.unlisted_eq, State.isPlain]

/-- R315, R316: the body of a narrow configuration write. -/
theorem State.cfgWrite_narrow {c : Cfg} (h : c.Wf) {s : State} (hc : s.cfg = c) (w : Width) (hw : w ≠ .dword) (bus devfn : Byte)
    (off : BitVec 12) (v : Word) :
    s.cfgWrite w bus devfn off v = { s.afterDraws (s.readDraws (locOf bus devfn off)) with
      work := { s.work with
        tok := token c bus devfn off
        dw := laneMerge (s.dwordAt (locOf bus devfn off)) off w v
        sh := laneShift off
        lm := laneMaskAt off w }
      br := { s.br with cfgaddr := token c bus devfn off }
      ans := s.dwordAt (locOf bus devfn off)
      mem := if s.isPlain (locOf bus devfn off) then
          Memory.writeDword s.unlisted s.mem (locOf bus devfn off) (laneMerge (s.dwordAt (locOf bus devfn off)) off w v)
        else s.mem
      hist := s.hist ++ [.brWr c.offCfgaddr (token c bus devfn off), .brRd c.offCfgdata (s.dwordAt (locOf bus devfn off)),
        .brWr c.offCfgdata (laneMerge (s.dwordAt (locOf bus devfn off)) off w v)] } := by
  subst hc
  have e : s.cfgWrite w bus devfn off v = ((s.cfgFetch bus devfn off).cfgMerge w off v).brWr32 s.cfg.offCfgdata
      (laneMerge (s.cfgFetch bus devfn off).work.dw off w v) := by
    cases w <;> first | exact absurd rfl hw | rfl
  rw [e, State.brWr32_cfgdata h (s := (s.cfgFetch bus devfn off).cfgMerge w off v) (bus := bus) (devfn := devfn) (off := off)
    (by simp [State.cfgMerge]) (by simp [State.cfgMerge, State.cfgFetch_eq h rfl])]
  simp [State.cfgMerge, State.cfgFetch_eq h rfl, State.afterDraws, State.unlisted_eq]

/-- R315, R316: what a narrow configuration write does to the history, the bridge registers and the other locations. -/
theorem State.cfgWrite_narrow_spec {c : Cfg} (h : c.Wf) {s : State} (hc : s.cfg = c) (hm : s.memWf = true) (w : Width)
    (hw : w ≠ .dword) (bus devfn : Byte) (off : BitVec 12) (v : Word) :
    (s.cfgWrite w bus devfn off v).hist = s.hist ++ [.brWr c.offCfgaddr (token c bus devfn off),
      .brRd c.offCfgdata (s.dwordAt (locOf bus devfn off)), .brWr c.offCfgdata (laneMerge (s.dwordAt (locOf bus devfn off)) off w v)] ∧
    (s.cfgWrite w bus devfn off v).br = { s.br with cfgaddr := token c bus devfn off } ∧
    (∀ a, BitVec.ofNat 26 (a / 4) ≠ locOf bus devfn off → (s.cfgWrite w bus devfn off v).cfgByte a = s.cfgByte a) := by
  subst hc
  rw [State.cfgWrite_narrow h rfl w hw]
  refine ⟨rfl, rfl, fun a ha => ?_⟩
  simp only [State.cfgByte, State.unlisted_eq, State.afterDraws]
  split
  · rw [Memory.read_writeDword_lane (Config.csByte s.epoch) _ _ _ _ hm, if_neg]
    intro e; apply ha; rw [e]; simp
  · rfl

/-- R341, R292: the first request of ROOT_FIXUP in closed form. -/
theorem State.openInbound_eq {c : Cfg} (h : c.Wf) {s : State} (hc : s.cfg = c) :
    s.openInbound = { s with
      ss := { s.ss with bar0setup := c.bar0Mask2g ||| c.bar0En }
      hist := s.hist ++ [.ssWr c.offBar0setup (c.bar0Mask2g ||| c.bar0En)] } := by
  subst hc
  rw [State.openInbound, State.ssWr32_bar0setup h rfl rfl]

/-- R341: the rest of ROOT_FIXUP in closed form; the read-back gives the zero just written. -/
theorem State.zeroBase_eq {c : Cfg} (h : c.Wf) {s : State} (hc : s.cfg = c) :
    s.zeroBase = { s with
      ss := { s.ss with imbasebar0 := 0 }
      work := { s.work with rb := 0 }
      ans := 0
      hist := s.hist ++ [.ssWr c.offImbasebar0 0, .ssRd c.offImbasebar0 0] } := by
  subst hc
  have e := State.ssWr32_imbasebar0 h (s := s) rfl rfl 0
  rw [State.zeroBase, e, State.ssRd32_imbasebar0 h (s := { s with
    ss := { s.ss with imbasebar0 := 0 }, hist := s.hist ++ [.ssWr s.cfg.offImbasebar0 0] }) rfl rfl]
  simp

/-- R344: the command register written back, as a 32-bit value. -/
theorem commandValue_zeroExtend (c : Cfg) (d : Word) (off : BitVec 12) :
    (Cfg.commandValue c ((laneExtract d off .half).extractLsb' 0 16)).zeroExtend 32 =
      laneExtract d off .half ||| (c.cmdMaster ||| c.cmdIo ||| c.cmdMemory).zeroExtend 32 := by
  have hi0 : (laneExtract d off .half).extractLsb' 16 16 = 0#16 := by
    have m : ∀ i : Fin 16, (laneMask .half).getLsbD (16 + i.val) = false := by decide
    ext i hi
    simp only [laneExtract, BitVec.getElem_extractLsb', BitVec.getLsbD_and, m ⟨i, hi⟩, Bool.and_false, BitVec.getElem_zero]
  generalize laneExtract d off .half = x at *
  unfold Cfg.commandValue
  generalize c.cmdMaster = a; generalize c.cmdIo = b; generalize c.cmdMemory = e
  ext i hi
  by_cases h : i < 16
  · simp [h, BitVec.getLsbD_eq_getElem hi, Bool.or_assoc]
  · have := congrArg (fun v : BitVec 16 => v.getLsbD (i - 16)) hi0
    simp [show i - 16 < 16 by omega, show 16 + (i - 16) = i by omega] at this
    simp [h, ← BitVec.getLsbD_eq_getElem hi, this]

end Sys2Proof.Machine
end

