-- ==== Sys2Proof/Laws/PerInstr.lean ====
section
/-! SUPPORT. The family TableRow: the word of every operation has the constant bits of its row of spec/opcode_table.json, on the port of the row's
format; a row without an encoding has no word. One lemma a constructor. -/

namespace Sys2Proof.Laws.TableRow

/-- A CMD row: mask and match. -/
abbrev Cmd (i : Instr) (mask m : BitVec 64) : Prop := ∃ w, encode i = some (.command w) ∧ w &&& mask = m
/-- An MREQ row. -/
abbrev Mreq (i : Instr) (mask m : BitVec 84) : Prop := ∃ w, encode i = some (.master w) ∧ w &&& mask = m
/-- An XREQ row. -/
abbrev Xreq (i : Instr) (mask m : BitVec 34) : Prop := ∃ w, encode i = some (.traffic w) ∧ w &&& mask = m
/-- A SEQ row. -/
abbrev Seq (i : Instr) (mask m : BitVec 6) : Prop := ∃ w, encode i = some (.step w) ∧ w &&& mask = m
/-- An INTERNAL row. -/
abbrev Internal (i : Instr) : Prop := encode i = none

/-- The row of each operation. The write-mode flag of F-PHYW stands at bit 23 (R158), not where the row's string has it (log 7). -/
def Statement (i : Instr) : Prop :=
  match i with
  | .attach _ _ _ _ => Cmd i 0xF 0x1
  | .mapirq _ _ _ _ => Cmd i 0xF 0x2
  | .cfgrdB _ _ _ _ => Cmd i 0xF 0x4
  | .cfgrdH _ _ _ _ => Cmd i 0xF 0x5
  | .cfgrdW _ _ _ _ => Cmd i 0xF 0x6
  | .cfgwrB _ _ _ _ => Cmd i 0xF 0x8
  | .cfgwrH _ _ _ _ => Cmd i 0xF 0x9
  | .cfgwrW _ _ _ _ => Cmd i 0xF 0xA
  | .illegal0 _ _ _ _ => Cmd i 0xF 0x0
  | .illegal3 _ _ _ _ => Cmd i 0xF 0x3
  | .illegal7 _ _ _ _ => Cmd i 0xF 0x7
  | .illegalB _ _ _ _ => Cmd i 0xF 0xB
  | .illegalCF _ _ _ _ _ => Cmd i 0xC 0xC
  | .brRd32 _ => Mreq i 0xF 0x0
  | .brWr32 _ _ => Mreq i 0xF 0x1
  | .ssRd32 _ => Mreq i 0xF 0x2
  | .ssWr32 _ _ => Mreq i 0xF 0x3
  | .scRd32 _ => Mreq i 0xF 0x4
  | .scMod32 _ _ _ => Mreq i 0xF 0x5
  | .rstAssert => Mreq i 0xF 0x6
  | .rstDeassert => Mreq i 0xF 0x7
  | .delay _ => Mreq i 0xF 0x8
  | .log _ _ => Mreq i 0xF 0x9
  | .register => Mreq i 0xF 0xA
  | .inbXlate _ => Xreq i 0x3 0x0
  | .outbMemXlate _ => Xreq i 0x3 0x1
  | .outbIoXlate _ => Xreq i 0x3 0x2
  | .xreqReserved _ => Xreq i 0x3 0x3
  | .seq01 => Seq i 0x3F 0x1
  | .seq02 => Seq i 0x3F 0x2
  | .seq03 => Seq i 0x3F 0x3
  | .seq04 => Seq i 0x3F 0x4
  | .seq05 => Seq i 0x3F 0x5
  | .seq06 => Seq i 0x3F 0x6
  | .seq07 => Seq i 0x3F 0x7
  | .seq08 => Seq i 0x3F 0x8
  | .seq09 => Seq i 0x3F 0x9
  | .seq10 => Seq i 0x3F 0xA
  | .seq11 => Seq i 0x3F 0xB
  | .seq12 => Seq i 0x3F 0xC
  | .seq13 => Seq i 0x3F 0xD
  | .seq14 => Seq i 0x3F 0xE
  | .seq15 => Seq i 0x3F 0xF
  | .seq16 => Seq i 0x3F 0x10
  | .seq17 => Seq i 0x3F 0x11
  | .seq18 => Seq i 0x3F 0x12
  | .seq19 => Seq i 0x3F 0x13
  | .seq20 => Seq i 0x3F 0x14
  | .seq21 => Seq i 0x3F 0x15
  | .seq22 => Seq i 0x3F 0x16
  | .seq23 => Seq i 0x3F 0x17
  | .seq24 => Seq i 0x3F 0x18
  | .seq25 => Seq i 0x3F 0x19
  | .seq26 => Seq i 0x3F 0x1A
  | .seq27 => Seq i 0x3F 0x1B
  | .seq28 => Seq i 0x3F 0x1C
  | .seq29 => Seq i 0x3F 0x1D
  | .seq30 => Seq i 0x3F 0x1E
  | .seq31 => Seq i 0x3F 0x1F
  | .seq32 => Seq i 0x3F 0x20
  | .seq33 => Seq i 0x3F 0x21
  | .seq34 => Seq i 0x3F 0x22
  | .seq35 => Seq i 0x3F 0x23
  | .seq36 => Seq i 0x3F 0x24
  | .seq37 => Seq i 0x3F 0x25
  | .seq38 => Seq i 0x3F 0x26
  | .seqIdle => Seq i 0x3F 0x0
  | .fToken _ _ _ _ _ => ∃ w, encode i = some (.tokenWord w) ∧ w.extractLsb' 28 4 = 0x8#4 ∧ w.extractLsb' 0 2 = 0#2
  | .fPhyw _ _ => ∃ w, encode i = some (.phyWord w) ∧ w.extractLsb' 16 16 = 0x0080#16
  | .fBar _ _ => ∃ w, encode i = some (.barWord w) ∧ w.extractLsb' 1 15 = 0#15
  | .fDevfn _ _ => ∃ w, encode i = some (.devfnByte w)
  | .fCmd _ _ _ _ _ => ∃ w, encode i = some (.cmdFormat w)
  | .fRes _ _ _ => ∃ w, encode i = some (.resultWord w) ∧ w.extractLsb' 16 16 = 0#16
  | .waitPhyIdle => Internal i
  | .calibrate _ _ => Internal i
  | .calSeq => Internal i
  | .brMod32 _ _ _ => Internal i
  | .wincfg => Internal i
  | .token _ _ _ => Internal i
  | .laneExtract _ _ _ => Internal i
  | .laneMerge _ _ _ _ => Internal i
  | .rootFixup => Internal i
  | .housekeep _ _ _ => Internal i

theorem command_low (op : BitVec 4) (wdata : Word) (bus devfn : Byte) (off : BitVec 12) :
    encodeCommand op wdata bus devfn off &&& 0xF = op.zeroExtend 64 := by
  apply BitVec.eq_of_toNat_eq
  have h := congrArg BitVec.toNat (encodeCommand_fields op wdata bus devfn off).1
  rw [BitVec.extractLsb'_toNat, Nat.shiftRight_zero] at h
  rw [BitVec.toNat_and, show (0xF : BitVec 64).toNat = 2 ^ 4 - 1 from rfl, Nat.and_two_pow_sub_one_eq_mod, h, BitVec.toNat_setWidth,
    Nat.mod_eq_of_lt (by have := op.isLt; omega)]

theorem command_CF (lo : BitVec 2) (wdata : Word) (bus devfn : Byte) (off : BitVec 12) :
    encodeCommand (3#2 ++ lo) wdata bus devfn off &&& 0xC = 0xC := by
  have e : encodeCommand (3#2 ++ lo) wdata bus devfn off &&& 0xC = (encodeCommand (3#2 ++ lo) wdata bus devfn off &&& 0xF) &&& 0xC := by
    rw [BitVec.and_assoc]; rfl
  have d : ∀ lo : BitVec 2, BitVec.zeroExtend 64 (3#2 ++ lo) &&& 0xC = 0xC := by decide
  rw [e, command_low, d]

theorem master_low (k : BitVec 4) (a : Half) (x y : Word) : encodeMaster k a x y &&& 0xF = k.zeroExtend 84 := by
  apply BitVec.eq_of_toNat_eq
  have h := congrArg BitVec.toNat (encodeMaster_fields k a x y).1
  rw [BitVec.extractLsb'_toNat, Nat.shiftRight_zero] at h
  rw [BitVec.toNat_and, show (0xF : BitVec 84).toNat = 2 ^ 4 - 1 from rfl, Nat.and_two_pow_sub_one_eq_mod, h, BitVec.toNat_setWidth,
    Nat.mod_eq_of_lt (by have := k.isLt; omega)]

theorem traffic_low (k : BitVec 2) (a : Word) : encodeTraffic k a &&& 0x3 = k.zeroExtend 34 := by
  apply BitVec.eq_of_toNat_eq
  have h := congrArg BitVec.toNat (encodeTraffic_fields k a).1
  rw [BitVec.extractLsb'_toNat, Nat.shiftRight_zero] at h
  rw [BitVec.toNat_and, show (0x3 : BitVec 34).toNat = 2 ^ 2 - 1 from rfl, Nat.and_two_pow_sub_one_eq_mod, h, BitVec.toNat_setWidth,
    Nat.mod_eq_of_lt (by have := k.isLt; omega)]

theorem token_const (ext : BitVec 4) (bus : Byte) (slot : BitVec 5) (func : BitVec 3) (reg : BitVec 6) :
    (0x8#4 ++ ext ++ bus ++ slot ++ func ++ reg ++ 0#2 : Word).extractLsb' 28 4 = 0x8#4 := by
  rw [extract_append_high 26 4 28 _ _ rfl, extract_append_high 20 4 26 _ _ rfl, extract_append_high 17 4 20 _ _ rfl,
    extract_append_high 12 4 17 _ _ rfl, extract_append_high 4 4 12 _ _ rfl, extract_append_top 4 _ _ rfl]

theorem phyWord_const (addr data : Byte) : (0x0080#16 ++ addr ++ data : Word).extractLsb' 16 16 = 0x0080#16 := by
  rw [extract_append_high 8 16 16 _ _ rfl, extract_append_top 8 _ _ rfl]

theorem barWord_const (mask : Half) (en : BitVec 1) : (mask ++ 0#15 ++ en : Word).extractLsb' 1 15 = 0#15 := by
  rw [extract_append_high 0 15 1 _ _ rfl, extract_append_low]

theorem resultWord_const (rdata : Word) (aux status : Byte) : (rdata ++ 0#16 ++ aux ++ status : BitVec 64).extractLsb' 16 16 = 0#16 := by
  rw [extract_append_high 8 16 16 _ _ rfl, extract_append_high 0 16 8 _ _ rfl, extract_append_low]

theorem attach (wdata : Word) (bus devfn : Byte) (off : BitVec 12) : Statement (.attach wdata bus devfn off) := ⟨_, rfl, command_low _ wdata bus devfn off⟩
theorem mapirq (wdata : Word) (bus devfn : Byte) (off : BitVec 12) : Statement (.mapirq wdata bus devfn off) := ⟨_, rfl, command_low _ wdata bus devfn off⟩
theorem cfgrdB (wdata : Word) (bus devfn : Byte) (off : BitVec 12) : Statement (.cfgrdB wdata bus devfn off) := ⟨_, rfl, command_low _ wdata bus devfn off⟩
theorem cfgrdH (wdata : Word) (bus devfn : Byte) (off : BitVec 12) : Statement (.cfgrdH wdata bus devfn off) := ⟨_, rfl, command_low _ wdata bus devfn off⟩
theorem cfgrdW (wdata : Word) (bus devfn : Byte) (off : BitVec 12) : Statement (.cfgrdW wdata bus devfn off) := ⟨_, rfl, command_low _ wdata bus devfn off⟩
theorem cfgwrB (wdata : Word) (bus devfn : Byte) (off : BitVec 12) : Statement (.cfgwrB wdata bus devfn off) := ⟨_, rfl, command_low _ wdata bus devfn off⟩
theorem cfgwrH (wdata : Word) (bus devfn : Byte) (off : BitVec 12) : Statement (.cfgwrH wdata bus devfn off) := ⟨_, rfl, command_low _ wdata bus devfn off⟩
theorem cfgwrW (wdata : Word) (bus devfn : Byte) (off : BitVec 12) : Statement (.cfgwrW wdata bus devfn off) := ⟨_, rfl, command_low _ wdata bus devfn off⟩
theorem illegal0 (wdata : Word) (bus devfn : Byte) (off : BitVec 12) : Statement (.illegal0 wdata bus devfn off) := ⟨_, rfl, command_low _ wdata bus devfn off⟩
theorem illegal3 (wdata : Word) (bus devfn : Byte) (off : BitVec 12) : Statement (.illegal3 wdata bus devfn off) := ⟨_, rfl, command_low _ wdata bus devfn off⟩
theorem illegal7 (wdata : Word) (bus devfn : Byte) (off : BitVec 12) : Statement (.illegal7 wdata bus devfn off) := ⟨_, rfl, command_low _ wdata bus devfn off⟩
theorem illegalB (wdata : Word) (bus devfn : Byte) (off : BitVec 12) : Statement (.illegalB wdata bus devfn off) := ⟨_, rfl, command_low _ wdata bus devfn off⟩
theorem illegalCF (lo : BitVec 2) (wdata : Word) (bus devfn : Byte) (off : BitVec 12) : Statement (.illegalCF lo wdata bus devfn off) := ⟨_, rfl, command_CF lo wdata bus devfn off⟩
theorem brRd32 (addr : Half) : Statement (.brRd32 addr) := ⟨_, rfl, master_low _ _ _ _⟩
theorem brWr32 (addr : Half) (v : Word) : Statement (.brWr32 addr v) := ⟨_, rfl, master_low _ _ _ _⟩
theorem ssRd32 (addr : Half) : Statement (.ssRd32 addr) := ⟨_, rfl, master_low _ _ _ _⟩
theorem ssWr32 (addr : Half) (v : Word) : Statement (.ssWr32 addr v) := ⟨_, rfl, master_low _ _ _ _⟩
theorem scRd32 (addr : Half) : Statement (.scRd32 addr) := ⟨_, rfl, master_low _ _ _ _⟩
theorem scMod32 (addr : Half) (clr set : Word) : Statement (.scMod32 addr clr set) := ⟨_, rfl, master_low _ _ _ _⟩
theorem rstAssert : Statement .rstAssert := ⟨_, rfl, master_low _ _ _ _⟩
theorem rstDeassert : Statement .rstDeassert := ⟨_, rfl, master_low _ _ _ _⟩
theorem delay (n : Word) : Statement (.delay n) := ⟨_, rfl, master_low _ _ _ _⟩
theorem log (code : Half) (arg : Word) : Statement (.log code arg) := ⟨_, rfl, master_low _ _ _ _⟩
theorem register : Statement .register := ⟨_, rfl, master_low _ _ _ _⟩
theorem inbXlate (addr : Word) : Statement (.inbXlate addr) := ⟨_, rfl, traffic_low _ _⟩
theorem outbMemXlate (addr : Word) : Statement (.outbMemXlate addr) := ⟨_, rfl, traffic_low _ _⟩
theorem outbIoXlate (addr : Word) : Statement (.outbIoXlate addr) := ⟨_, rfl, traffic_low _ _⟩
theorem xreqReserved (addr : Word) : Statement (.xreqReserved addr) := ⟨_, rfl, traffic_low _ _⟩
theorem seq01 : Statement .seq01 := ⟨_, rfl, by decide⟩
theorem seq02 : Statement .seq02 := ⟨_, rfl, by decide⟩
theorem seq03 : Statement .seq03 := ⟨_, rfl, by decide⟩
theorem seq04 : Statement .seq04 := ⟨_, rfl, by decide⟩
theorem seq05 : Statement .seq05 := ⟨_, rfl, by decide⟩
theorem seq06 : Statement .seq06 := ⟨_, rfl, by decide⟩
theorem seq07 : Statement .seq07 := ⟨_, rfl, by decide⟩
theorem seq08 : Statement .seq08 := ⟨_, rfl, by decide⟩
theorem seq09 : Statement .seq09 := ⟨_, rfl, by decide⟩
theorem seq10 : Statement .seq10 := ⟨_, rfl, by decide⟩
theorem seq11 : Statement .seq11 := ⟨_, rfl, by decide⟩
theorem seq12 : Statement .seq12 := ⟨_, rfl, by decide⟩
theorem seq13 : Statement .seq13 := ⟨_, rfl, by decide⟩
theorem seq14 : Statement .seq14 := ⟨_, rfl, by decide⟩
theorem seq15 : Statement .seq15 := ⟨_, rfl, by decide⟩
theorem seq16 : Statement .seq16 := ⟨_, rfl, by decide⟩
theorem seq17 : Statement .seq17 := ⟨_, rfl, by decide⟩
theorem seq18 : Statement .seq18 := ⟨_, rfl, by decide⟩
theorem seq19 : Statement .seq19 := ⟨_, rfl, by decide⟩
theorem seq20 : Statement .seq20 := ⟨_, rfl, by decide⟩
theorem seq21 : Statement .seq21 := ⟨_, rfl, by decide⟩
theorem seq22 : Statement .seq22 := ⟨_, rfl, by decide⟩
theorem seq23 : Statement .seq23 := ⟨_, rfl, by decide⟩
theorem seq24 : Statement .seq24 := ⟨_, rfl, by decide⟩
theorem seq25 : Statement .seq25 := ⟨_, rfl, by decide⟩
theorem seq26 : Statement .seq26 := ⟨_, rfl, by decide⟩
theorem seq27 : Statement .seq27 := ⟨_, rfl, by decide⟩
theorem seq28 : Statement .seq28 := ⟨_, rfl, by decide⟩
theorem seq29 : Statement .seq29 := ⟨_, rfl, by decide⟩
theorem seq30 : Statement .seq30 := ⟨_, rfl, by decide⟩
theorem seq31 : Statement .seq31 := ⟨_, rfl, by decide⟩
theorem seq32 : Statement .seq32 := ⟨_, rfl, by decide⟩
theorem seq33 : Statement .seq33 := ⟨_, rfl, by decide⟩
theorem seq34 : Statement .seq34 := ⟨_, rfl, by decide⟩
theorem seq35 : Statement .seq35 := ⟨_, rfl, by decide⟩
theorem seq36 : Statement .seq36 := ⟨_, rfl, by decide⟩
theorem seq37 : Statement .seq37 := ⟨_, rfl, by decide⟩
theorem seq38 : Statement .seq38 := ⟨_, rfl, by decide⟩
theorem seqIdle : Statement .seqIdle := ⟨_, rfl, by decide⟩
theorem fToken (ext : BitVec 4) (bus : Byte) (slot : BitVec 5) (func : BitVec 3) (reg : BitVec 6) : Statement (.fToken ext bus slot func reg) := ⟨_, rfl, token_const ext bus slot func reg, extract_append_low _ _⟩
theorem fPhyw (addr data : Byte) : Statement (.fPhyw addr data) := ⟨_, rfl, phyWord_const addr data⟩
theorem fBar (mask : Half) (en : BitVec 1) : Statement (.fBar mask en) := ⟨_, rfl, barWord_const mask en⟩
theorem fDevfn (slot : BitVec 5) (func : BitVec 3) : Statement (.fDevfn slot func) := ⟨_, rfl⟩
theorem fCmd (wdata : Word) (bus devfn : Byte) (off : BitVec 12) (op : BitVec 4) : Statement (.fCmd wdata bus devfn off op) := ⟨_, rfl⟩
theorem fRes (rdata : Word) (aux status : Byte) : Statement (.fRes rdata aux status) := ⟨_, rfl, resultWord_const rdata aux status⟩
theorem waitPhyIdle : Statement .waitPhyIdle := rfl
theorem calibrate (a d : Byte) : Statement (.calibrate a d) := rfl
theorem calSeq : Statement .calSeq := rfl
theorem brMod32 (addr : Half) (clr set : Word) : Statement (.brMod32 addr clr set) := rfl
theorem wincfg : Statement .wincfg := rfl
theorem token (bus devfn : Byte) (off : BitVec 12) : Statement (.token bus devfn off) := rfl
theorem laneExtract (dw : Word) (off : BitVec 12) (w : Width) : Statement (.laneExtract dw off w) := rfl
theorem laneMerge (dw : Word) (off : BitVec 12) (w : Width) (v : Word) : Statement (.laneMerge dw off w v) := rfl
theorem rootFixup : Statement .rootFixup := rfl
theorem housekeep (bus devfn irq : Byte) : Statement (.housekeep bus devfn irq) := rfl

end Sys2Proof.Laws.TableRow
end

