-- ==== Sys2Proof/Laws/Step.lean ====
section
/-! SUPPORT. Everything a step can do under the outside's own inputs, said once; and every command word as one accepted command. -/

namespace Sys2Proof.Machine

/-- R151, R152: a command word is accepted with all its fields, and its op decides what is executed. -/
theorem exec_decodeCommand (w : BitVec 64) (s : State) :
    exec (decodeCommand w) s = .next (s.onPort fun s =>
      (s.accept (w.extractLsb' 0 4) (w.extractLsb' 32 32) (w.extractLsb' 24 8) (w.extractLsb' 16 8) (w.extractLsb' 4 12)).commandBody
        (w.extractLsb' 0 4) (w.extractLsb' 32 32) (w.extractLsb' 24 8) (w.extractLsb' 16 8) (w.extractLsb' 4 12)) := by
  have hi : ∀ op : BitVec 4, 12 ≤ op.toNat → 3#2 ++ op.extractLsb' 0 2 = op := by decide
  simp only [decodeCommand]
  generalize w.extractLsb' 0 4 = op
  obtain ⟨n, hn⟩ := op
  have : n = 0 ∨ n = 1 ∨ n = 2 ∨ n = 3 ∨ n = 4 ∨ n = 5 ∨ n = 6 ∨ n = 7 ∨ n = 8 ∨ n = 9 ∨ n = 10 ∨ n = 11 ∨ n = 12 ∨ n = 13 ∨ n = 14 ∨
      n = 15 := by omega
  rcases this with h | h | h | h | h | h | h | h | h | h | h | h | h | h | h | h <;> subst h <;>
    first
    | rfl
    | (have e := hi { toFin := ⟨_, hn⟩ } (by simp); refine Eq.trans ?_ (congrArg (fun o => Host.Outcome.next (s.onPort fun s =>
        (s.accept o (w.extractLsb' 32 32) (w.extractLsb' 24 8) (w.extractLsb' 16 8) (w.extractLsb' 4 12)).illegalBody)) e); rfl)

/-- R161: a traffic word moves nothing but the answer of the traffic port. -/
theorem exec_decodeTraffic (w : BitVec 34) (s : State) :
    ∃ hit addr, exec (decodeTraffic w) s = .next { s with xHit := hit, xAddr := addr } := by
  simp only [decodeTraffic]
  split <;> exact ⟨_, _, rfl⟩

/-- R33, R162: the sequencer's turn. -/
theorem decodeStep_ok (n : BitVec 6) (h : n.toNat ≤ 38) : ∃ i, decodeStep n = .ok i := by
  have : ∀ n : BitVec 6, n.toNat ≤ 38 → (decodeStep n).isOk = true := by decide
  have := this n h
  revert this
  cases decodeStep n with
  | ok i => exact fun _ => ⟨i, rfl⟩
  | error e => exact fun h => absurd h (by simp [Except.isOk, Except.toBool])

/-- The block's own turn: the sequencer's row, or the rest of a MAPIRQ(0,0) (R162, R292). -/
theorem step_of_turn (s : State) (rest : List Input) (h : s.turnNext rest) :
    step s = if s.fixup then .next { s with inputs := rest }.mapirqResume
      else match decodeStep s.seq with
        | .ok i => exec i { s with inputs := rest }
        | .error _ => .fault .noStep := by
  have turn : ∀ t : State, fetch s = fetchTurn t → step s = if t.fixup then .next t.mapirqResume
      else match decodeStep t.seq with
        | .ok i => exec i t
        | .error _ => .fault .noStep := by
    intro t h
    unfold step
    rw [h, fetchTurn]
    cases t.fixup
    · unfold fetchStep
      cases decodeStep t.seq <;> rfl
    · rfl
  have same : s.inputs = rest → { s with inputs := rest } = s := fun e => by rw [← e]
  rcases h with ⟨hi, hr⟩ | hi | ⟨hb, hr, w, more, hi⟩
  · exact turn { s with inputs := rest } (by rw [same (hi.trans hr.symm)]; unfold fetch; rw [hi])
  · exact turn { s with inputs := rest } (by unfold fetch; rw [hi])
  · exact turn { s with inputs := rest } (by rw [same hr.symm]; unfold fetch; rw [hi]; exact if_pos hb)

/-- R292: the turn inside MAPIRQ(0,0). -/
theorem step_resume {s : State} {rest : List Input} (h : s.turnNext rest) (hf : s.fixup = true) :
    step s = .next { s with inputs := rest }.mapirqResume := by
  rw [step_of_turn s rest h, if_pos hf]

/-- R162: the sequencer's turn. -/
theorem step_row {s : State} {rest : List Input} {i : Instr} (h : s.turnNext rest) (hf : s.fixup = false)
    (hd : decodeStep s.seq = .ok i) : step s = exec i { s with inputs := rest } := by
  rw [step_of_turn s rest h, if_neg (by simp [hf]), hd]

/-- R292: the turn inside MAPIRQ(0,0) with nothing presented. -/
theorem step_resume_nil {s : State} (hi : s.inputs = []) (hf : s.fixup = true) : step s = .next s.mapirqResume := by
  have e : { s with inputs := [] } = s := by rw [← hi]
  rw [step_resume (.inl ⟨hi, rfl⟩) hf, e]

/-- The four things that a step can be when the outside presents only its own words (R20, R151, R161, R415): a hardware reset, an address
translation, a command taken by a free port, or the block's own turn. -/
theorem step_cases (s : State) (h : s.outsideOnly = true) :
    (∃ rest, s.inputs = .reset :: rest ∧ step s = .next { s with inputs := rest }.hardwareReset) ∨
    (∃ w rest hit addr, s.inputs = .word (.traffic w) :: rest ∧ step s = .next { s with inputs := rest, xHit := hit, xAddr := addr }) ∨
    (∃ w rest, s.inputs = .word (.command w) :: rest ∧ s.busy = false ∧ step s = exec (decodeCommand w) { s with inputs := rest }) ∨
    (∃ rest, s.turnNext rest ∧ rest.all Input.fromOutside = true ∧
      step s = if s.fixup then .next { s with inputs := rest }.mapirqResume
        else match decodeStep s.seq with
          | .ok i => exec i { s with inputs := rest }
          | .error _ => .fault .noStep) := by
  have ho : s.inputs.all Input.fromOutside = true := h
  cases hi : s.inputs with
  | nil => exact .inr (.inr (.inr ⟨[], .inl ⟨hi, rfl⟩, rfl, step_of_turn s [] (.inl ⟨hi, rfl⟩)⟩))
  | cons x rest =>
    rw [hi, List.all_cons, Bool.and_eq_true] at ho
    cases x with
    | gap => exact .inr (.inr (.inr ⟨rest, .inr (.inl hi), ho.2, step_of_turn s rest (.inr (.inl hi))⟩))
    | reset => exact .inl ⟨rest, rfl, by simp only [step, fetch, hi]⟩
    | word p =>
      cases p with
      | command w =>
        by_cases hb : s.busy = true
        · have ht : s.turnNext s.inputs := .inr (.inr ⟨hb, rfl, w, rest, hi⟩)
          exact .inr (.inr (.inr ⟨s.inputs, ht, h, step_of_turn s _ ht⟩))
        · refine .inr (.inr (.inl ⟨w, rest, rfl, by simpa using hb, ?_⟩))
          simp only [step, fetch, hi, if_neg hb]
          rfl
      | traffic w =>
        obtain ⟨hit, addr, e⟩ := exec_decodeTraffic w { s with inputs := rest }
        exact .inr (.inl ⟨w, rest, hit, addr, rfl, by simp only [step, fetch, hi]; exact e⟩)
      | _ => exact absurd ho.1 (by simp [Input.fromOutside])

end Sys2Proof.Machine
end

