-- ==== Sys2Proof/Tests/Slice0.lean ====
section
/-! SUPPORT. Tests with expected results from spec/95_test_vectors.md (the vector is named before each), the smoke test of WellFormed, every
constructor's decoding, and a witness for the hypotheses of every statement that has some. -/

namespace Sys2Proof.Tests
open Sys2Proof Sys2Proof.Machine

-- Helpers

/-- The default parameters with an empty ONCHIP_REGS (OPEN-1 gives none). -/
def cfg : Cfg := { Cfg.default with onchipBase := 0, onchipSize := 0 }

/-- A small state whose every field is a numeral: after reset, with concrete values for the unspecified registers. -/
def bench : State := { State.afterReset cfg 0 with
  lat := { op := 0, bus := 0, devfn := 0, off := 0, wdata := 0 }
  res := { status := 0, aux := 0, rdata := 0 }
  work := { tok := 0, dw := 0, sh := 0, lm := 0, v := 0, polls := 0, cala := 0, cald := 0, cmdv := 0, rb := 0, irq := 0, outcome := 0 }
  rstOut := false
  br := { pcimsk := 0, cfgaddr := 0, membase := 0, iobase := 0 }
  ss := { bar0setup := 0, imbasebar0 := 0, id := 0, cls := 0, subid := 0 }
  sc := { gpiomode := 0, syscfg1 := 0, clkcfg1 := 0, clkgen0 := 0, clkgen1 := 0, pplldrv := 0 }
  plain := [], ans := 0, xHit := false, xAddr := 0 }

/-- The bytes of 0x12345678 at dword 1 of function (1, 0, 0), and that dword in `Plain` (V44C). -/
def up : State := { bench with
  ls := .up, attached := true, registered := true, sc := { bench.sc with clkcfg1 := 0x04000000 }
  br := { pcimsk := 0x00100000, cfgaddr := 0, membase := 0xFFFFFFFF, iobase := 0x10160000 }
  ss := { bar0setup := 0x7FFF0000, imbasebar0 := 0, id := 0x08021814, cls := 0x06040001, subid := 0x28801814 }
  plain := [locOf 1 0 4], mem := [(0x100004, 0x78), (0x100005, 0x56), (0x100006, 0x34), (0x100007, 0x12)] }

/-- `up` with nothing written in configuration space. -/
def clear : State := { up with mem := [] }

/-- The outcome is a next state that passes a check. -/
def ok (o : Host.Outcome State Fault Refusal) (p : State → Bool) : Bool :=
  match o with
  | .next t => p t
  | .fault _ => false
  | .refused _ => false

/-- A step of bring-up about to be executed, with every register as the invariants of bring-up ask (R243, R420). -/
def stage (n : BitVec 6) : State := { clear with
  ls := if n = 0 then .up else lsDuring n, seq := n, busy := decide (n ≠ 0), registered := decide (n = 0)
  rstOut := decide ((4 ≤ n.toNat ∧ n.toNat ≤ 9) ∨ n.toNat = 14 ∨ (18 ≤ n.toNat ∧ n.toNat ≤ 22) ∨ (27 ≤ n.toNat ∧ n.toNat ≤ 29))
  sc := { bench.sc with clkcfg1 := if n.toNat ≤ 10 ∧ 1 ≤ n.toNat ∨ n.toNat = 28 ∨ n.toNat = 29 then 0 else 0x04000000 } }

/-- The two ends of a failed bring-up. -/
def disabled : State := { bench with ls := .disabled, attached := true, rstOut := true }

/-- Between the two writes of a MAPIRQ(0,0) (R292). -/
def paused : State := { clear with busy := true, fixup := true, ss := { up.ss with bar0setup := 0x7FFF0001 } }

-- WellFormed: one ill-formed term for each check

/-- R202: LOG codes are 1 to 3. -/
theorem test_wf_log : Instr.wellFormed (.log 0 0) = false ∧ Instr.wellFormed (.log 4 0) = false ∧ Instr.wellFormed (.log 1 0) = true ∧
    Instr.wellFormed (.log 3 0) = true := by decide
/-- R319: a dword has no lane merge. -/
theorem test_wf_laneMerge : Instr.wellFormed (.laneMerge 0 0 .dword 0) = false ∧ Instr.wellFormed (.laneMerge 0 0 .byte 0) = true ∧
    Instr.wellFormed (.laneMerge 0 3 .half 0) = true := by decide
/-- R344: housekeeping addresses function 0. -/
theorem test_wf_housekeep : Instr.wellFormed (.housekeep 0 0x01 0) = false ∧ Instr.wellFormed (.housekeep 0 0x07 0) = false ∧
    Instr.wellFormed (.housekeep 0 0x08 0) = true := by decide

-- Decoding: every constructor that has a word, from the words of V30, V40, V43, the step table (R243) and the wire formats

/-- V30-2, V30-7, V30-9 to V30-11. -/
theorem test_decode_commands : decode (.command 0xDEADBEEFABCDEF11) = .ok (.attach 0xDEADBEEF 0xAB 0xCD 0xEF1) ∧
    decode (.command 0x0000000002180012) = .ok (.mapirq 0 2 0x18 0x001) ∧
    decode (.command 0x0000000001000054) = .ok (.cfgrdB 0 1 0x00 0x005) ∧
    decode (.command 0x0000000001000045) = .ok (.cfgrdH 0 1 0x00 0x004) ∧
    decode (.command 0x0000000001000046) = .ok (.cfgrdW 0 1 0x00 0x004) := by decide
/-- V30-14: every field at its maximum. -/
theorem test_decode_maximum : decode (.command 0x00000000FFFFFFC6) = .ok (.cfgrdW 0 255 0xFF 0xFFC) := by decide
/-- V30-15 to V30-17. -/
theorem test_decode_cfgwr : decode (.command 0x000000AB01000058) = .ok (.cfgwrB 0xAB 1 0x00 0x005) ∧
    decode (.command 0x0000000701000049) = .ok (.cfgwrH 0x0007 1 0x00 0x004) ∧
    decode (.command 0x200000000100010A) = .ok (.cfgwrW 0x20000000 1 0x00 0x010) := by decide
/-- V30-19 to V30-23. -/
theorem test_decode_reserved : decode (.command 0) = .ok (.illegal0 0 0 0 0) ∧
    decode (.command 0x0000000001000043) = .ok (.illegal3 0 1 0 0x004) ∧
    decode (.command 0x0000000001000047) = .ok (.illegal7 0 1 0 0x004) ∧
    decode (.command 0x000000010100004B) = .ok (.illegalB 1 1 0 0x004) ∧
    decode (.command 0x000000000000000F) = .ok (.illegalCF 3 0 0 0 0) ∧
    decode (.command 0x000000000000000C) = .ok (.illegalCF 0 0 0 0 0) := by decide
/-- V40-1 to V40-6, V40-9. -/
theorem test_decode_master_access : decode (.master 0x000000000000000000240) = .ok (.brRd32 0x24) ∧
    decode (.master 0x00000000FFFFFFFF00281) = .ok (.brWr32 0x28 0xFFFFFFFF) ∧
    decode (.master 0x000000000000000000902) = .ok (.ssRd32 0x90) ∧
    decode (.master 0x00000000008068B400903) = .ok (.ssWr32 0x90 0x008068B4) ∧
    decode (.master 0x0000000000000000009C4) = .ok (.scRd32 0x9C) ∧
    decode (.master 0x800800000006000000A05) = .ok (.scMod32 0xA0 0x00060000 0x80080000) := by decide
/-- V40-11 to V40-13, V40-17, V40-18, and the first reserved kind (R163). -/
theorem test_decode_master_other : decode (.master 0x000000000000000000006) = .ok .rstAssert ∧
    decode (.master 0x000000000000000000007) = .ok .rstDeassert ∧
    decode (.master 0x000000000000006400008) = .ok (.delay 100) ∧
    decode (.master 0x000000000000020300039) = .ok (.log 3 0x00000203) ∧
    decode (.master 0x00000000000000000000A) = .ok .register ∧
    decode (.master 0x00000000000000000000B) = .error .reservedMreqKind := by decide
/-- V43-2, V43-12, V43-20; kind 3 (R161). -/
theorem test_decode_traffic : decode (.traffic 0x0048D159C) = .ok (.inbXlate 0x01234567) ∧
    decode (.traffic 0x080004001) = .ok (.outbMemXlate 0x20001000) ∧
    decode (.traffic 0x040580012) = .ok (.outbIoXlate 0x10160004) ∧
    decode (.traffic 0x3FFFFFFFF) = .ok (.xreqReserved 0xFFFFFFFF) := by decide
/-- R243, R162: rows 1 to 13 of the step table. -/
theorem test_decode_steps_1 : decode (.step 1) = .ok .seq01 ∧
    decode (.step 2) = .ok .seq02 ∧
    decode (.step 3) = .ok .seq03 ∧
    decode (.step 4) = .ok .seq04 ∧
    decode (.step 5) = .ok .seq05 ∧
    decode (.step 6) = .ok .seq06 ∧
    decode (.step 7) = .ok .seq07 ∧
    decode (.step 8) = .ok .seq08 ∧
    decode (.step 9) = .ok .seq09 ∧
    decode (.step 10) = .ok .seq10 ∧
    decode (.step 11) = .ok .seq11 ∧
    decode (.step 12) = .ok .seq12 ∧
    decode (.step 13) = .ok .seq13 := by decide
/-- R243, R162: rows 14 to 26 of the step table. -/
theorem test_decode_steps_14 : decode (.step 14) = .ok .seq14 ∧
    decode (.step 15) = .ok .seq15 ∧
    decode (.step 16) = .ok .seq16 ∧
    decode (.step 17) = .ok .seq17 ∧
    decode (.step 18) = .ok .seq18 ∧
    decode (.step 19) = .ok .seq19 ∧
    decode (.step 20) = .ok .seq20 ∧
    decode (.step 21) = .ok .seq21 ∧
    decode (.step 22) = .ok .seq22 ∧
    decode (.step 23) = .ok .seq23 ∧
    decode (.step 24) = .ok .seq24 ∧
    decode (.step 25) = .ok .seq25 ∧
    decode (.step 26) = .ok .seq26 := by decide
/-- R243, R162: rows 27 to 38 of the step table. -/
theorem test_decode_steps_27 : decode (.step 27) = .ok .seq27 ∧
    decode (.step 28) = .ok .seq28 ∧
    decode (.step 29) = .ok .seq29 ∧
    decode (.step 30) = .ok .seq30 ∧
    decode (.step 31) = .ok .seq31 ∧
    decode (.step 32) = .ok .seq32 ∧
    decode (.step 33) = .ok .seq33 ∧
    decode (.step 34) = .ok .seq34 ∧
    decode (.step 35) = .ok .seq35 ∧
    decode (.step 36) = .ok .seq36 ∧
    decode (.step 37) = .ok .seq37 ∧
    decode (.step 38) = .ok .seq38 := by decide
/-- R33, R163: step 0 is idle, 39 and 63 are reserved. -/
theorem test_decode_step_ends : decode (.step 0) = .ok .seqIdle ∧ decode (.step 39) = .error .reservedStep ∧
    decode (.step 63) = .error .reservedStep := by decide
/-- V44-5, V44-11; R163: a token needs its enable bit and zero in bits 30:28 and 1:0. -/
theorem test_decode_token : decode (.tokenWord 0x8FFFFFFC) = .ok (.fToken 0xF 0xFF 31 7 0x3F) ∧
    decode (.tokenWord 0x8002183C) = .ok (.fToken 0 2 3 0 0xF) ∧ decode (.tokenWord 0x0002183C) = .error .malformedToken ∧
    decode (.tokenWord 0x80021839) = .error .malformedToken := by decide
/-- 2.3 of the vectors: CALIBRATE 0x68, 0xB4; R158: the write-mode flag is bit 23, not bit 22 (log 7). -/
theorem test_decode_phyWord : decode (.phyWord 0x008068B4) = .ok (.fPhyw 0x68 0xB4) ∧
    decode (.phyWord 0x004068B4) = .error .malformedPhyWord := by decide
/-- R159: the two setup words the block writes; a setup word with another low bit. -/
theorem test_decode_barWord : decode (.barWord 0x7FFF0001) = .ok (.fBar 0x7FFF 1) ∧ decode (.barWord 0x7FFF0000) = .ok (.fBar 0x7FFF 0) ∧
    decode (.barWord 0x7FFF0002) = .error .malformedBarWord := by decide
/-- R155: devfn 0xFF is (31, 7), 0x18 is (3, 0). -/
theorem test_decode_devfn : decode (.devfnByte 0xFF) = .ok (.fDevfn 31 7) ∧ decode (.devfnByte 0x18) = .ok (.fDevfn 3 0) := by decide
/-- V30-2 taken as a format; V30R-3 and V30R-10 as result words. -/
theorem test_decode_formats : decode (.cmdFormat 0xDEADBEEFABCDEF11) = .ok (.fCmd 0xDEADBEEF 0xAB 0xCD 0xEF1 1) ∧
    decode (.resultWord 0x0000000000000200) = .ok (.fRes 0 2 0) ∧ decode (.resultWord 0x0000005600000000) = .ok (.fRes 0x56 0 0) ∧
    decode (.resultWord 0x0000000000010000) = .error .malformedResult := by decide
/-- R169: the INTERNAL rows have no word. -/
theorem test_internal_rows : encode .waitPhyIdle = none ∧ encode (.calibrate 0 0) = none ∧ encode .calSeq = none ∧
    encode (.brMod32 0 0 0) = none ∧ encode .wincfg = none ∧ encode (.token 0 0 0) = none ∧ encode (.laneExtract 0 0 .byte) = none ∧
    encode (.laneMerge 0 0 .byte 0) = none ∧ encode .rootFixup = none ∧ encode (.housekeep 0 0 0) = none := by decide
/-- V30-9, V43-2, V40-9 and step 25 through the numbering of spec/opcode_table.json. -/
theorem test_table_words : decodeTableWord 64 0x0000000001000054 = some (.cfgrdB 0 1 0x00 0x005) ∧
    decodeTableWord 40 0x0048D159C = some (.inbXlate 0x01234567) ∧ decodeTableWord 88 0x800800000006000000A05 = some (.scMod32 0xA0 0x00060000 0x80080000) ∧
    decodeTableWord 8 25 = some .seq25 ∧ decodeTableWord 32 0x8001083C = some (.fToken 0 1 1 0 0xF) := by decide

-- Single steps

/-- V42-8, V60-8: no resource. -/
theorem test_attach_resource : ok (exec (.attach 0 0 0 0) { bench with resOks := [false] })
    (fun t => decide (t.res = ⟨0x83, 0, 0⟩) && !t.attached && !t.busy && decide (t.seq = 0)) = true := by decide
/-- V42-10, V60-7: AlreadyAttached before ResourceFail. -/
theorem test_attach_again : ok (exec (.attach 0 0 0 0) { disabled with resOks := [false] })
    (fun t => decide (t.res = ⟨0x84, 0, 0⟩) && decide (t.ls = .disabled) && decide (t.resOks = [false])) = true := by decide
/-- V45-10: with HOUSEKEEP_UNEXPECTED = false one LOG, irq 0; V45-4: the pin is ignored, irq 4, fourteen events. -/
theorem test_mapirq_branches : ok (exec (.mapirq 0 2 0x18 1) { up with cfg := { cfg with housekeepUnexpected := false } })
      (fun t => decide (t.hist = [.log 3 0x00000203]) && decide (t.res = ⟨0, 0, 0⟩)) = true ∧
    ok (exec (.mapirq 0 1 0 7) up) (fun t => decide (t.res = ⟨0, 4, 0⟩) && decide (t.hist.length = 14)) = true := by decide
/-- V44C-1. -/
theorem test_cfgrdB : ok (exec (.cfgrdB 0 1 0 0x005) up) (fun t => decide (t.res = ⟨0, 0, 0x56⟩) &&
    decide (t.hist = [.brWr 0x20 0x80010004, .brRd 0x24 0x12345678])) = true := by decide
/-- V44C-3. -/
theorem test_cfgrdH : ok (exec (.cfgrdH 0 1 0 0x006) up) (fun t => decide (t.res = ⟨0, 0, 0x1234⟩)) = true := by decide
/-- V44C-4. -/
theorem test_cfgrdW : ok (exec (.cfgrdW 0 1 0 0x004) up) (fun t => decide (t.res = ⟨0, 0, 0x12345678⟩)) = true := by decide
/-- V44C-13, V60-5: a misaligned dword is refused and leaves no event. -/
theorem test_cfgrdW_misaligned : ok (exec (.cfgrdW 0 1 0 0x006) up) (fun t => decide (t.res = ⟨0x85, 0, 0⟩) && decide (t.hist = [])) = true := by decide
/-- V44C-6. -/
theorem test_cfgwrB : ok (exec (.cfgwrB 0xAB 1 0 0x005) up) (fun t => decide (t.res = ⟨0, 0, 0⟩) &&
    decide (t.hist = [.brWr 0x20 0x80010004, .brRd 0x24 0x12345678, .brWr 0x24 0x1234AB78])) = true := by decide
/-- V44C-8. -/
theorem test_cfgwrH : ok (exec (.cfgwrH 0xBEEF 1 0 0x006) up) (fun t => decide (t.res = ⟨0, 0, 0⟩) &&
    decide (t.hist = [.brWr 0x20 0x80010004, .brRd 0x24 0x12345678, .brWr 0x24 0xBEEF5678])) = true := by decide
/-- V44C-10: no read before a dword write. -/
theorem test_cfgwrW : ok (exec (.cfgwrW 0xCAFEF00D 1 0 0x004) up) (fun t => decide (t.res = ⟨0, 0, 0⟩) &&
    decide (t.hist = [.brWr 0x20 0x80010004, .brWr 0x24 0xCAFEF00D])) = true := by decide
/-- V44C-10: what the store holds after it, and a byte beside it. -/
theorem test_cfgwrW_store : ∃ t, exec (.cfgwrW 0xCAFEF00D 1 0 0x004) { up with mem := [] } = .next t ∧ t.cfgByte 0x100004 = 0x0D ∧
    t.cfgByte 0x100005 = 0xF0 ∧ t.cfgByte 0x100006 = 0xFE ∧ t.cfgByte 0x100007 = 0xCA ∧ t.cfgByte 0x100008 = Config.csByte 0 0x100008 := by
  refine ⟨_, rfl, ?_, ?_, ?_, ?_, ?_⟩ <;> exact Memory.read_writeDword _ [] (locOf 1 0 4) 0xCAFEF00D _ rfl
/-- R102, V44C-6, V44C-7: the lanes of a stored dword, where an unlisted byte reads as 0; a byte equal to it leaves the list. -/
theorem test_store : Memory.writeDword (fun _ => 0) up.mem (locOf 1 0 4) 0x1234AB78 = [(0x100004, 0x78), (0x100005, 0xAB), (0x100006, 0x34), (0x100007, 0x12)] ∧
    Memory.writeDword (fun _ => 0) up.mem (locOf 1 0 4) 0x12345600 = [(0x100005, 0x56), (0x100006, 0x34), (0x100007, 0x12)] ∧
    Memory.readDword (fun _ => 0) up.mem (locOf 1 0 4) = 0x12345678 := by decide
/-- V60-1, V60-2: IllegalOp whatever the Link State. -/
theorem test_illegal : ok (exec (.illegal7 0 1 0 5) bench) (fun t => decide (t.res = ⟨0x81, 0, 0⟩) && decide (t.hist = [])) = true ∧
    ok (exec (.illegal0 0 0 0 0) up) (fun t => decide (t.res = ⟨0x81, 0, 0⟩)) = true := by decide
/-- V60-3: NotUp before Misaligned. -/
theorem test_notUp : ok (exec (.cfgrdH 0 1 0 0x005) bench) (fun t => decide (t.res = ⟨0x82, 0, 0⟩) && decide (t.hist = [])) = true := by decide
/-- V40-1: CFGDATA answers the selected dword. -/
theorem test_brRd32 : ok (exec (.brRd32 0x24) { up with br := { up.br with cfgaddr := 0x80010004 } }) (fun t => decide (t.ans = 0x12345678)) = true := by decide
/-- V40-3. -/
theorem test_brWr32 : ok (exec (.brWr32 0x28 0xFFFFFFFF) bench) (fun t => decide (t.br = { bench.br with membase := 0xFFFFFFFF })) = true := by decide
/-- 2.2 of the vectors: BR_MOD32 of PCIMSK reading 3. -/
theorem test_brMod32 : ok (exec (.brMod32 0x0C 0 0x00100000) { bench with br := { bench.br with pcimsk := 3 } })
    (fun t => decide (t.hist = [.brRd 0x0C 0x00000003, .brWr 0x0C 0x00100003])) = true := by decide
/-- V40-4: PHYCFG answers what the environment gives. -/
theorem test_ssRd32 : ok (exec (.ssRd32 0x90) { bench with draws := [0x80000000, 7] }) (fun t => decide (t.ans = 0x80000000) && decide (t.draws = [7])) = true := by decide
/-- V40-5. -/
theorem test_ssWr32 : ok (exec (.ssWr32 0x90 0x008068B4) bench) (fun t => decide (t.phyLog = [⟨0x68, 0xB4, false⟩]) && decide (t.ss = bench.ss)) = true := by decide
/-- V40-6. -/
theorem test_scRd32 : ok (exec (.scRd32 0x9C) { bench with draws := [0x00800000] }) (fun t => decide (t.ans = 0x00800000)) = true := by decide
/-- V40-9. -/
theorem test_scMod32 : ok (exec (.scMod32 0xA0 0x00060000 0x80080000) { bench with sc := { bench.sc with pplldrv := 0x80060000 } })
    (fun t => decide (t.sc.pplldrv = 0x80080000)) = true ∧
    ok (exec (.scMod32 0xA0 0x00060000 0x80080000) { bench with sc := { bench.sc with pplldrv := 0xFFFFFFFF } })
      (fun t => decide (t.sc.pplldrv = 0xFFF9FFFF)) = true := by decide
/-- V40-10: set wins. -/
theorem test_scMod32_overlap : ok (exec (.scMod32 0x7C 0x80000000 0x80000000) bench) (fun t => decide (t.sc.clkgen0 = 0x80000000)) = true := by decide
/-- V40-11, V40-12. -/
theorem test_resetLine : ok (exec .rstAssert bench) (fun t => t.rstOut) = true ∧ ok (exec .rstDeassert disabled) (fun t => !t.rstOut) = true := by decide
/-- V40-18. -/
theorem test_register : ok (exec .register bench) (fun t => t.registered) = true := by decide
/-- V43-3, V43-4, V43-9. -/
theorem test_inbXlate : ok (exec (.inbXlate 0x7FFFFFFF) { bench with ss := { bench.ss with bar0setup := 0x7FFF0001 } }) (fun t => t.xHit && decide (t.xAddr = 0x7FFFFFFF)) = true ∧
    ok (exec (.inbXlate 0x80000000) { bench with ss := { bench.ss with bar0setup := 0x7FFF0001 } }) (fun t => !t.xHit && decide (t.xAddr = 0)) = true ∧
    ok (exec (.inbXlate 0x40ABCDEF) { bench with ss := { bench.ss with bar0setup := 0x00FF0001, imbasebar0 := 0x40000000 } })
      (fun t => t.xHit && decide (t.xAddr = 0x40ABCDEF)) = true := by decide
/-- V43-6, V43-10. -/
theorem test_inbXlate_closed : ok (exec (.inbXlate 0x01234567) { bench with ss := { bench.ss with bar0setup := 0x7FFF0000 } }) (fun t => !t.xHit) = true ∧
    ok (exec (.inbXlate 0x41000000) { bench with ss := { bench.ss with bar0setup := 0x00FF0001, imbasebar0 := 0x40000000 } }) (fun t => !t.xHit) = true := by decide
/-- V43-13 to V43-15, V43-18. -/
theorem test_outbMem : ok (exec (.outbMemXlate 0x2FFFFFFF) up) (fun t => t.xHit && decide (t.xAddr = 0x2FFFFFFF)) = true ∧
    ok (exec (.outbMemXlate 0x30000000) up) (fun t => !t.xHit) = true ∧ ok (exec (.outbMemXlate 0x1FFFFFFF) up) (fun t => !t.xHit) = true ∧
    ok (exec (.outbMemXlate 0x20001000) { up with br := { up.br with membase := 0xFFFFFFFE } }) (fun t => !t.xHit) = true := by decide
/-- V43-21 to V43-25: the end of the window, and a window at the end of the address space. -/
theorem test_outbIo : ok (exec (.outbIoXlate 0x1016FFFF) up) (fun t => t.xHit && decide (t.xAddr = 0x1016FFFF)) = true ∧
    ok (exec (.outbIoXlate 0x10170000) up) (fun t => !t.xHit) = true ∧ ok (exec (.outbIoXlate 0x1015FFFF) up) (fun t => !t.xHit) = true ∧
    ok (exec (.outbIoXlate 0xFFFFFFFF) { up with br := { up.br with iobase := 0xFFFF8000 } }) (fun t => t.xHit && decide (t.xAddr = 0xFFFFFFFF)) = true ∧
    ok (exec (.outbIoXlate 0x00000000) { up with br := { up.br with iobase := 0xFFFF8000 } }) (fun t => !t.xHit) = true := by decide
/-- R161: kind 3 is never claimed. -/
theorem test_xreqReserved : ok (exec (.xreqReserved 0x20000000) up) (fun t => !t.xHit && decide (t.xAddr = 0)) = true := by decide
/-- V70-2: steps 1, 2, 4, 5 from the registers of that vector. -/
theorem test_seq_prologue : ok (exec .seq01 { bench with sc := { bench.sc with gpiomode := 0xFFFFFFFF } }) (fun t => decide (t.sc.gpiomode = 0xFFFEFFFF)) = true ∧
    ok (exec .seq02 { bench with sc := { bench.sc with syscfg1 := 0xFFFFFFFF } }) (fun t => decide (t.sc.syscfg1 = 0xFFFFFEFF)) = true ∧
    ok (exec .seq04 { bench with sc := { bench.sc with clkcfg1 := 0xFFFFFFFF } }) (fun t => decide (t.sc.clkcfg1 = 0xFBFFFFFF)) = true ∧
    ok (exec .seq05 bench) (fun t => decide (t.sc.pplldrv = 0x80000000) && decide (t.ls = .calibrating)) = true := by decide
/-- P2, events 25 to 27. -/
theorem test_seq_clocks : ok (exec .seq18 bench) (fun t => decide (t.hist = [.scMod 0x14 0x00000030 0x00000020])) = true ∧
    ok (exec .seq19 bench) (fun t => decide (t.hist = [.scMod 0x7C 0x80000000 0x80000000])) = true ∧
    ok (exec .seq20 bench) (fun t => decide (t.hist = [.scMod 0x80 0x7F000000 0x7F000000])) = true ∧
    ok (exec .seq21 bench) (fun t => decide (t.hist = [.delay 50])) = true := by decide
/-- V42-2: every bit but the lock. -/
theorem test_seq12_unlocked : ok (exec .seq12 { bench with draws := [0xFF7FFFFF] }) (fun t => decide (t.seq = 13) && decide (t.raised = [.pllUnlock])) = true ∧
    ok (exec .seq12 { bench with draws := [0x00800000] }) (fun t => decide (t.seq = 15)) = true := by decide
/-- V42-4: every bit but the link bit. -/
theorem test_seq25_down : ok (exec .seq25 { bench with draws := [0xFFFFFFFE] }) (fun t => decide (t.seq = 26) && decide (t.raised = [.linkDown])) = true ∧
    ok (exec .seq25 { bench with draws := [0x00000001] }) (fun t => decide (t.seq = 30)) = true := by decide
/-- V30R-2, V30R-5, V30R-4: the result words of the halting steps. -/
theorem test_seq_halts : ok (exec .seq14 (stage 14)) (fun t => decide (t.res = ⟨0, 0x01, 0⟩) && decide (t.ls = .disabled) && !t.busy) = true ∧
    ok (exec .seq29 { stage 29 with calFail := true }) (fun t => decide (t.res = ⟨0, 0x82, 0⟩) && decide (t.hist = [.log 2 0])) = true ∧
    ok (exec .seq38 { stage 38 with calFail := true }) (fun t => decide (t.res = ⟨0, 0x80, 0⟩) && decide (t.ls = .up) && t.registered) = true := by decide
/-- P2, events 33 to 39: the window and identification constants. -/
theorem test_seq_windows : ok (exec .seq30 bench) (fun t => decide (t.hist = [.brWr 0x28 0xFFFFFFFF])) = true ∧
    ok (exec .seq31 bench) (fun t => decide (t.hist = [.brWr 0x2C 0x10160000])) = true ∧ ok (exec .seq32 bench) (fun t => decide (t.hist = [.ssWr 0x10 0x7FFF0000])) = true ∧
    ok (exec .seq33 bench) (fun t => decide (t.hist = [.ssWr 0x18 0x00000000])) = true ∧ ok (exec .seq34 bench) (fun t => decide (t.hist = [.ssWr 0x30 0x08021814])) = true ∧
    ok (exec .seq35 bench) (fun t => decide (t.hist = [.ssWr 0x34 0x06040001])) = true ∧ ok (exec .seq36 bench) (fun t => decide (t.hist = [.ssWr 0x38 0x28801814])) = true := by decide
/-- 2.3 of the vectors: the control words of steps 6 and 7. -/
theorem test_seq_calibrations : ok (exec .seq06 { bench with draws := [0, 0] }) (fun t => decide (t.hist = [.ssRd 0x90 0, .ssWr 0x90 0x00800080, .delay 1, .ssRd 0x90 0])) = true ∧
    ok (exec .seq07 { bench with draws := [0, 0x7FFFFFFF] }) (fun t => decide (t.hist = [.ssRd 0x90 0, .ssWr 0x90 0x00800104, .delay 1, .ssRd 0x90 0x7FFFFFFF])) = true := by decide
/-- V41-W2. -/
theorem test_waitPhyIdle : ok (exec .waitPhyIdle { bench with draws := [0x80000000, 0] }) (fun t => decide (t.hist = [.ssRd 0x90 0x80000000, .delay 100, .ssRd 0x90 0]) &&
    decide (t.ret = .ok)) = true := by decide
/-- V41-W5: eleven busy polls. -/
theorem test_waitPhyIdle_timeout : ok (exec .waitPhyIdle { bench with draws := List.replicate 11 0x80000000 }) (fun t => decide (t.hist.length = 21) && decide (t.ret = .timeout)) = true := by decide
/-- V41-3. -/
theorem test_calibrate_first : ok (exec (.calibrate 0x68 0xB4) { bench with draws := List.replicate 11 0x80000000 }) (fun t => decide (t.hist.length = 22) &&
    decide (t.hist.getLast? = some (.log 1 0x00006800)) && t.calFail && decide (t.phyLog = [])) = true := by decide
/-- V41-4. -/
theorem test_calibrate_second : ok (exec (.calibrate 0x68 0xB4) { bench with draws := 0 :: List.replicate 11 0x80000000 }) (fun t => decide (t.hist.length = 25) &&
    decide (t.hist.getLast? = some (.log 1 0x00006801)) && t.calFail && decide (t.phyLog = [⟨0x68, 0xB4, false⟩])) = true := by decide
/-- P1, events 6 to 17. -/
theorem test_calSeq : ok (exec .calSeq { bench with draws := [0, 0, 0, 0, 0, 0] }) (fun t => decide (t.hist.length = 12) &&
    decide (t.phyLog = [⟨0x00, 0x80, true⟩, ⟨0x01, 0x04, true⟩, ⟨0x68, 0xB4, true⟩])) = true := by decide
/-- P2, events 33 to 42. -/
theorem test_wincfg : ok (exec .wincfg { bench with br := { bench.br with pcimsk := 3 } }) (fun t => decide (t.hist = [.brWr 0x28 0xFFFFFFFF, .brWr 0x2C 0x10160000,
    .ssWr 0x10 0x7FFF0000, .ssWr 0x18 0, .ssWr 0x30 0x08021814, .ssWr 0x34 0x06040001, .ssWr 0x38 0x28801814, .brRd 0x0C 3, .brWr 0x0C 0x00100003, .register])) = true := by decide
/-- V44-3 to V44-5. -/
theorem test_token : ok (exec (.token 1 0x08 0x03C) bench) (fun t => decide (t.ret = .word 0x8001083C)) = true ∧
    ok (exec (.token 1 0x00 0x105) bench) (fun t => decide (t.ret = .word 0x81010004)) = true ∧
    ok (exec (.token 255 0xFF 0xFFF) bench) (fun t => decide (t.ret = .word 0x8FFFFFFC)) = true := by decide
/-- V44-20, V44-22, V44-33. -/
theorem test_laneExtract : ok (exec (.laneExtract 0x12345678 3 .byte) bench) (fun t => decide (t.ret = .word 0x12)) = true ∧
    ok (exec (.laneExtract 0x12345678 2 .half) bench) (fun t => decide (t.ret = .word 0x1234)) = true ∧
    ok (exec (.laneExtract 0x80FFFFFF 3 .byte) bench) (fun t => decide (t.ret = .word 0x80)) = true := by decide
/-- V44-25, V44-31; the half-word at lane 3 under the policy `literal`. -/
theorem test_laneMerge : ok (exec (.laneMerge 0x12345678 1 .byte 0xAB) bench) (fun t => decide (t.ret = .word 0x1234AB78)) = true ∧
    ok (exec (.laneMerge 0x12345678 2 .half 0xFFFF0000) bench) (fun t => decide (t.ret = .word 0x00005678)) = true ∧
    ok (exec (.laneMerge 0x12345678 3 .half 0xBEEF) bench) (fun t => decide (t.ret = .word 0xEF345678)) = true := by decide
/-- P2, events 43 to 45. -/
theorem test_rootFixup : ok (exec .rootFixup up) (fun t => decide (t.hist = [.ssWr 0x10 0x7FFF0001, .ssWr 0x18 0, .ssRd 0x18 0])) = true := by decide
/-- P2, events 46 to 59: the five reads answer the dwords of that program. -/
theorem test_housekeep : ok (exec (.housekeep 0 0 0) { up with draws := [0x00000000, 0x00000014, 0x00100000, 0x00100000, 0x00000100] })
    (fun t => decide (t.hist = [.brWr 0x20 0x8000000C, .brRd 0x24 0x00000000, .brWr 0x24 0x00000014, .brWr 0x20 0x8000000C, .brRd 0x24 0x00000014,
      .brWr 0x24 0x0000FF14, .brWr 0x20 0x80000004, .brRd 0x24 0x00100000, .brWr 0x20 0x80000004, .brRd 0x24 0x00100000, .brWr 0x24 0x00100007,
      .brWr 0x20 0x8000003C, .brRd 0x24 0x00000100, .brWr 0x24 0x00000100])) = true := by decide
/-- V45-1: MAPIRQ(0,0) writes the open mask, stands one turn, and then does its other sixteen requests. R292: between the two writes the
window is open with the target that WINCFG wrote, 0x80000000 in the second machine; a command word waits. -/
theorem test_mapirq_root : ok (exec (.mapirq 0 0 0 1) up) (fun t => t.busy && t.fixup && decide (t.hist = [.ssWr 0x10 0x7FFF0001]) &&
      ok (step t) fun u => decide (u.res = ⟨0, 0, 0⟩) && !u.busy && !u.fixup && decide (u.hist.length = 17) && decide (u.ss.imbasebar0 = 0)) = true ∧
    ok (exec (.mapirq 0 0 0 1) { up with ss := { up.ss with imbasebar0 := 0x80000000 } }) (fun t =>
      ok (step { t with inputs := [.word (.traffic 0x2048D159C)] }) fun u => u.xHit && decide (u.xAddr = 0x81234567) && u.fixup &&
        ok (step { u with inputs := [.word (.command 0x46), .gap] }) fun v => !v.fixup && decide (v.inputs = [.word (.command 0x46), .gap]) &&
          ok (step { v with inputs := [.word (.traffic 0x2048D159C)] }) fun w => !w.xHit) = true := by decide
/-- The wire formats: V44-11 reaches CFGADDR, CALIBRATE's word the PHY, 0x7FFF0001 BAR0SETUP, V30R-8 the result register. -/
theorem test_wire : ok (exec (.fToken 0 2 3 0 0xF) bench) (fun t => decide (t.br.cfgaddr = 0x8002183C)) = true ∧
    ok (exec (.fPhyw 0x68 0xB4) bench) (fun t => decide (t.phyLog = [⟨0x68, 0xB4, false⟩])) = true ∧
    ok (exec (.fBar 0x7FFF 1) bench) (fun t => decide (t.ss.bar0setup = 0x7FFF0001)) = true ∧
    ok (exec (.fDevfn 3 0) bench) (fun t => decide (t.lat.devfn = 0x18)) = true ∧
    ok (exec (.fRes 0 4 0) bench) (fun t => decide (t.res = ⟨0, 4, 0⟩)) = true := by decide
/-- V44C-1 as a format. -/
theorem test_fCmd : ok (exec (.fCmd 0 1 0 0x005 4) up) (fun t => decide (t.res = ⟨0, 0, 0x56⟩)) = true := by decide
/-- R241, R415: an admitted ATTACH holds the port; the next command word waits and the sequencer goes on. -/
theorem test_step_attach : ok (step { bench with resOks := [true], inputs := [.word (.command 1)] }) (fun t => decide (t.seq = 1) && t.busy && decide (t.inputs = [])) = true ∧
    ok (step { stage 3 with inputs := [.word (.command 1)] }) (fun t => decide (t.seq = 4) && decide (t.inputs = [.word (.command 1)])) = true := by decide
/-- Stops: an offset outside R202, CFGDATA without a selection (R202, R42). -/
theorem test_stops : exec (.brWr32 0x44 0) bench = .refused (.unlistedRegister 0x44) ∧ exec (.ssWr32 0x50 0) bench = .refused (.unlistedRegister 0x50) ∧
    exec (.scMod32 0x9C 0 0) bench = .refused (.unlistedRegister 0x9C) ∧ exec (.brWr32 0x24 0) bench = .refused .cfgdataUnselected :=
  ⟨rfl, rfl, rfl, rfl⟩
/-- R194, R158: a PHYCFG word without its write-mode flag runs; what the PHY makes of it is free. -/
theorem test_ssWr32_other : ok (exec (.ssWr32 0x90 0x000068B4) bench) (fun t => decide (t.hist = [.ssWr 0x90 0x000068B4]) && decide (t.ss = bench.ss)) = true := by
  decide
/-- R70, R401: after a hardware reset the store and `Plain` are the new reset's own, which no rule fixes. -/
theorem test_reset_store : ok (step { up with inputs := [.reset] }) (fun t => t.hist.isEmpty && t.phyLog.isEmpty && decide (t.epoch = 1) && !t.attached) = true ∧
    (State.afterReset cfg 1).plain = Config.plainAtReset 1 ∧ (State.afterReset cfg 1).cfgByte 4 = Config.csByte 1 4 := ⟨by decide, rfl, rfl⟩

-- Witnesses: for every statement with hypotheses, concrete states and operands that meet them, at the ends of each range

theorem cfg_wf : cfg.Wf := by decide

theorem tenBusy : ∀ u ∈ List.replicate 10 (0x80000000 : Word), u &&& cfg.mPhyBusy ≠ 0 := by
  intro u h
  rw [List.eq_of_mem_replicate h]
  decide

theorem ok_next {o : Host.Outcome State Fault Refusal} {p : State → Bool} (h : ok o p = true) : ∃ t, o = .next t ∧ p t = true := by
  cases o with
  | next t => exact ⟨t, rfl, h⟩
  | fault f => exact absurd h (by simp [ok])
  | refused r => exact absurd h (by simp [ok])

theorem witness_DecodeOfEncodeIsTheInstruction : Instr.hasEncoding (.log 0xFFFF 0) = true ∧ Instr.hasEncoding .calSeq = false := by decide

/-- The last accepted and the first rejected of each reserved range. -/
theorem witness_ReservedWordsAreRejected : decode (.master 0xA) = .ok .register ∧ decode (.master 0xB) = .error .reservedMreqKind ∧
    decode (.step 38) = .ok .seq38 ∧ decode (.step 39) = .error .reservedStep ∧ decode (.tokenWord 0x8FFFFFFC) = .ok (.fToken 0xF 0xFF 31 7 0x3F) ∧
    decode (.tokenWord 0x90000000) = .error .malformedToken ∧ decode (.phyWord 0x0080FFFF) = .ok (.fPhyw 0xFF 0xFF) ∧
    decode (.phyWord 0x00810000) = .error .malformedPhyWord ∧ decode (.barWord 0xFFFF0001) = .ok (.fBar 0xFFFF 1) ∧
    decode (.barWord 0xFFFF0002) = .error .malformedBarWord ∧ decode (.resultWord 0xFFFFFFFF0000FFFF) = .ok (.fRes 0xFFFFFFFF 0xFF 0xFF) ∧
    decode (.resultWord 0x10000) = .error .malformedResult := by decide

/-- A command on a free port, a traffic word on a busy block; the block's own turn: no input, a gap, a held command; and both kinds of turn. -/
theorem witness_StepRunsTheFetchedInstruction :
    ({ up with inputs := [.word (.command 0x46)] } : State).busy = false ∧ decode (.command 0x46) = .ok (.cfgrdW 0 0 0 4) ∧
    (stage 5).busy = true ∧ decode (.traffic 1) = .ok (.outbMemXlate 0) ∧ ¬(∃ w, PortWord.traffic 1 = .command w) ∧
    (stage 5).turnNext [] ∧ ({ stage 5 with inputs := [.gap] } : State).turnNext [] ∧
    ({ stage 5 with inputs := [.word (.command 7)] } : State).turnNext [.word (.command 7)] ∧ (stage 5).fixup = false ∧
    decode (.step (stage 5).seq) = .ok .seq05 ∧ paused.turnNext [] ∧ paused.fixup = true := by
  refine ⟨rfl, by decide, rfl, by decide, ?_, .inl ⟨rfl, rfl⟩, .inr (.inl rfl), .inr (.inr ⟨rfl, rfl, 7, [], rfl⟩), rfl, by decide, .inl ⟨rfl, rfl⟩, rfl⟩
  rintro ⟨w, h⟩
  cases h

theorem witness_ACommandIsHeldWhileBusy : (stage 38).busy = true ∧ (stage 38).fixup = false ∧ decode (.step (stage 38).seq) = .ok .seq38 ∧
    paused.busy = true ∧ paused.fixup = true ∧ decode (.command 0xFF) = .ok (.illegalCF 3 0 0 0 0xF) := by decide

/-- Two states that agree only in what a reset keeps. -/
theorem witness_HardwareResetCarriesNothingOver :
    ({ up with inputs := [.reset, .gap] } : State).inputs = .reset :: [.gap] ∧
    ({ disabled with inputs := [.reset, .gap] } : State).inputs = ({ up with inputs := [.reset, .gap] } : State).inputs ∧
    disabled.cfg = up.cfg ∧ disabled.epoch = up.epoch ∧ disabled.draws = up.draws ∧ disabled.drawCount = up.drawCount ∧
    disabled.resOks = up.resOks ∧ disabled.resOkCount = up.resOkCount ∧ disabled.ls ≠ up.ls := by decide

theorem witness_FlagsAreSticky : ok (step { up with calFail := true, inputs := [.word (.command 1)] }) (fun _ => true) = true ∧
    ({ up with calFail := true, inputs := [.word (.command 1)] } : State).notResetting = true ∧ up.attached = true ∧ up.registered = true := by decide

/-- What the statements about every step assume, as one check. -/
def good (s : State) : Bool :=
  decide s.cfg.Wf && decide s.ControlInv && decide s.ResetLineInv && decide s.ClockInv && decide s.WindowInv && s.outsideOnly &&
    s.memWf && ok (step s) fun _ => true

theorem good_spec {s : State} (h : good s = true) :
    s.cfg.Wf ∧ s.ControlInv ∧ s.BringupInv ∧ s.outsideOnly = true ∧ s.memWf = true ∧ ∃ t, step s = .next t := by
  simp only [good, Bool.and_eq_true, decide_eq_true_eq] at h
  obtain ⟨⟨⟨⟨⟨⟨⟨h1, h2⟩, h3⟩, h4⟩, h5⟩, h6⟩, h7⟩, h8⟩ := h
  obtain ⟨t, ht, -⟩ := ok_next h8
  exact ⟨h1, h2, ⟨h3, h4, h5⟩, h6, h7, t, ht⟩

/-- They hold in UP (0), at every step of bring-up (1 to 38), in DISABLED, in UP with an open inbound BAR, and inside MAPIRQ(0,0). -/
theorem witness_stages : ((List.range 39).all fun n => good (stage (BitVec.ofNat 6 n)) && (stage (BitVec.ofNat 6 n)).notResetting) = true ∧
    good disabled = true ∧ good { clear with ss := { clear.ss with bar0setup := 0x7FFF0001 } } = true ∧ good paused = true ∧
    paused.notResetting = true := by decide

/-- They hold, and the step is none of the sequencer's, with a command, a translation, a gap or a hardware reset presented; a translation
inside MAPIRQ(0,0). -/
theorem witness_inputs : ([Input.word (.command 0x0000000001000012), .word (.command 0x0000000000000012), .word (.command 0x000000AB01000058),
      .word (.traffic 0), .gap, .reset].all fun x => good { clear with inputs := [x] }) = true ∧
    good { paused with inputs := [.word (.traffic 0), .word (.command 0)] } = true := by decide

theorem witness_ControlInvariantIsKept : up.ControlInv ∧ up.outsideOnly = true ∧ (stage 1).ControlInv ∧ (stage 38).ControlInv ∧
    (State.afterReset cfg 0).ControlInv ∧ (State.afterReset cfg 0).outsideOnly = true :=
  ⟨by decide, by decide, by decide, by decide, by decide, by decide⟩

/-- A store that lists a byte, and a step that writes another one. -/
theorem witness_MemoryStaysCanonical :
    ({ up with mem := [(0x100004, Config.csByte 0 0x100004 + 1)], inputs := [.word (.command 0xCAFEF00D0100004A)] } : State).memWf = true ∧
    ok (step { up with mem := [(0x100004, Config.csByte 0 0x100004 + 1)], inputs := [.word (.command 0xCAFEF00D0100004A)] })
      (fun t => decide (t.res.status = 0)) = true := by
  refine ⟨?_, by decide⟩
  change Memory.wf (Config.csByte 0) _ = true
  simp [Memory.wf, Memory.wfFrom]

/-- A row of each of the six transitions of R32. -/
theorem witness_LinkStateFollowsItsTransitions : ∀ n ∈ [(5 : BitVec 6), 11, 14, 24, 29, 38], (stage n).ControlInv ∧ (stage n).outsideOnly = true ∧
    (stage n).notResetting = true ∧ ok (step (stage n)) (fun t => decide (t.ls ≠ (stage n).ls)) = true := by decide

theorem witness_BringupStagesAreKept : ∃ t, (stage 38).cfg.Wf ∧ (stage 38).ControlInv ∧ (stage 38).BringupInv ∧ (stage 38).outsideOnly = true ∧
    step (stage 38) = .next t :=
  ⟨_, by decide, by decide, ⟨by decide, by decide, by decide⟩, by decide, rfl⟩

/-- The inbound BAR closed in UP, with another MAPIRQ and with MAPIRQ(0,0) presented. -/
theorem witness_TheBarStaysClosed : let s : State := { clear with inputs := [.word (.command 0x0000000001000012)] }
    good s = true ∧ s.ls = .up ∧ s.ss.bar0setup = s.cfg.bar0Mask2g ∧ s.notResetting = true ∧ s.acceptsRootMapirq = false ∧
    ({ clear with inputs := [.word (.command 0x0000000000070072)] } : State).acceptsRootMapirq = true ∧
    ({ clear with inputs := [.word (.command 0x0000000000080002)] } : State).acceptsRootMapirq = false ∧
    ({ paused with inputs := [.word (.command 0x0000000000000002)] } : State).acceptsRootMapirq = false := by decide

/-- The step that configures the windows, a command, and a calibration, which are what these three histories are about. -/
theorem witness_histories : ([stage 37, paused, { clear with inputs := [.word (.command 0x0000000001000012)] }, { stage 8 with draws := [0, 0] }].all fun s =>
    good s && s.notResetting && ok (step s) fun t => decide (t.hist ≠ s.hist)) = true := by decide

theorem witness_RequestsStayInRange : ∃ t, (stage 37).ControlInv ∧ (stage 37).outsideOnly = true ∧ (stage 37).notResetting = true ∧
    step (stage 37) = .next t := ⟨_, by decide, by decide, by decide, rfl⟩

theorem witness_AddressDataPairIsOneUnit :
    ok (step { up with inputs := [.word (.command 0x000000AB01000058)] }) (fun t => t.hist.any (Event.isCfgdata cfg)) = true ∧
    ({ up with inputs := [.word (.command 0x000000AB01000058)] } : State).cfg.Wf ∧ ({ up with inputs := [.word (.command 0x000000AB01000058)] } : State).ControlInv ∧
    ({ up with inputs := [.word (.command 0x000000AB01000058)] } : State).outsideOnly = true ∧
    ({ up with inputs := [.word (.command 0x000000AB01000058)] } : State).notResetting = true :=
  ⟨by decide, by decide, by decide, by decide, by decide⟩

theorem witness_NoWriteIntoABusyPhy : ok (step { stage 6 with draws := [0x80000000, 0, 0] }) (fun t => t.hist.any (Event.isPhyWrite cfg)) = true ∧
    (stage 6).cfg.Wf ∧ (stage 6).ControlInv ∧ (stage 6).outsideOnly = true ∧ (stage 6).notResetting = true :=
  ⟨by decide, by decide, by decide, by decide, by decide⟩

/-- The first and the last step of bring-up. -/
theorem witness_AttachRunsToATerminalState : (stage 1).ControlInv ∧ (stage 1).registered = false ∧ (stage 1).seq ≠ 0 ∧ (stage 1).inputs = [] ∧ (stage 38).ControlInv ∧
    (stage 38).seq ≠ 0 ∧ (stage 38).inputs = [] := by decide

/-- V42-2, V42-4 and V42-5: an idle PHY in its most telling answer, and the two samples one bit away from the other branch. -/
theorem witness_PllUnlockHistory : let s : State := { stage 1 with draws := [0x7FFFFFFF, 0, 0, 0, 0, 0, 0xFF7FFFFF] }
    s.cfg.Wf ∧ s.ControlInv ∧ s.seq = 1 ∧ s.inputs = [] ∧ s.draws.length = 7 ∧
    (([0x7FFFFFFF, 0, 0, 0, 0, 0] : List Word).all fun v => v &&& cfg.mPhyBusy == 0) = true ∧ (0xFF7FFFFF : Word) &&& cfg.mPllLock = 0 :=
  ⟨cfg_wf, by decide, by decide, by decide, by decide, by decide, by decide⟩

theorem witness_LinkDownHistory : let s : State := { stage 1 with draws := [0x7FFFFFFF, 0, 0, 0, 0, 0, 0x00800000, 0xFFFFFFFE] }
    s.cfg.Wf ∧ s.ControlInv ∧ s.seq = 1 ∧ s.inputs = [] ∧ s.draws.length = 8 ∧
    (([0x7FFFFFFF, 0, 0, 0, 0, 0] : List Word).all fun v => v &&& cfg.mPhyBusy == 0) = true ∧ (0x00800000 : Word) &&& cfg.mPllLock ≠ 0 ∧ (0xFFFFFFFE : Word) &&& cfg.mLinkUp = 0 :=
  ⟨cfg_wf, by decide, by decide, by decide, by decide, by decide, by decide⟩

theorem witness_LinkUpHistory : let s : State := { stage 1 with draws := [0x7FFFFFFF, 0, 0, 0, 0, 0, 0x00800000, 1] }
    s.cfg.Wf ∧ s.ControlInv ∧ s.seq = 1 ∧ s.inputs = [] ∧ s.draws.length = 8 ∧
    (([0x7FFFFFFF, 0, 0, 0, 0, 0] : List Word).all fun v => v &&& cfg.mPhyBusy == 0) = true ∧ (0x00800000 : Word) &&& cfg.mPllLock ≠ 0 ∧ (1 : Word) &&& cfg.mLinkUp ≠ 0 :=
  ⟨cfg_wf, by decide, by decide, by decide, by decide, by decide, by decide⟩

/-- One state a clause. -/
theorem witness_AttachAdmission : disabled.busy = false ∧ disabled.attached = true ∧
    bench.busy = false ∧ bench.attached = false ∧ ({ bench with resOks := [false] } : State).nextResOk = false ∧
    ({ bench with resOks := [true] } : State).nextResOk = true := by decide

/-- Every reserved op, 0xB and 0xF at the ends of the range. -/
theorem witness_IllegalOpIsRefused : bench.busy = false ∧ up.busy = false ∧ (0x00 : BitVec 64).toNat % 16 = 0x0 ∧ (0x13 : BitVec 64).toNat % 16 = 0x3 ∧
    (0x27 : BitVec 64).toNat % 16 = 0x7 ∧ 0xB ≤ (0x3B : BitVec 64).toNat % 16 ∧ 0xB ≤ (0xFF : BitVec 64).toNat % 16 ∧
    ¬ 0xB ≤ (0x3A : BitVec 64).toNat % 16 := by decide

theorem witness_NotUpIsRefused : disabled.busy = false ∧ disabled.ls ≠ .up ∧ decode (.command 0x55) = .ok (.cfgrdH 0 0 0 5) ∧
    (0x55 : BitVec 64).toNat % 16 ∈ [0x2, 0x4, 0x5, 0x6, 0x8, 0x9, 0xA] ∧ decode (.command 0x12) = .ok (.mapirq 0 0 0 1) ∧
    (0x12 : BitVec 64).toNat % 16 ∈ [0x2, 0x4, 0x5, 0x6, 0x8, 0x9, 0xA] := by decide

/-- A half-word at lane 1, a dword at lanes 1 to 3. -/
theorem witness_MisalignedIsRefused : up.busy = false ∧ up.ls = .up ∧ up.cfg.misalignPolicy = .refuse ∧
    (1 : BitVec 12).toNat % widthBytes .half ≠ 0 ∧ (0xFFD : BitVec 12).toNat % widthBytes .dword ≠ 0 ∧ (0xFFF : BitVec 12).toNat % widthBytes .dword ≠ 0 := by decide

/-- A plain dword, a mirrored one and a drawn one; an aligned access, and a misaligned one under the policy `literal`. -/
theorem witness_CfgrdReadsTheAddressedLanes : up.cfg.Wf ∧ up.busy = false ∧ up.ls = .up ∧ (0xFFC : BitVec 12).toNat % widthBytes .dword = 0 ∧
    ({ up with cfg := { cfg with misalignPolicy := .literal } } : State).cfg.Wf ∧ locOf 1 0 4 ∈ up.plain ∧ rootHdrReg up.cfg (locOf 1 0 4) = none ∧
    rootHdrReg up.cfg (locOf 0 0 0) = some .id ∧ rootHdrReg up.cfg (locOf 0 0 8) = some .cls ∧ rootHdrReg up.cfg (locOf 0 0 0x2C) = some .subid ∧
    rootHdrReg up.cfg (locOf 2 0 0) = none ∧ locOf 2 0 0 ∉ up.plain :=
  ⟨by decide, by decide, by decide, by decide, by decide, by decide, by decide, by decide, by decide, by decide, by decide, by decide⟩

theorem witness_CfgwrWritesTheAddressedLanes : clear.cfg.Wf ∧ clear.memWf = true ∧ clear.busy = false ∧ clear.ls = .up ∧
    (7 : BitVec 12).toNat % widthBytes .byte = 0 ∧ (6 : BitVec 12).toNat % widthBytes .half = 0 ∧ clear.isPlain (locOf 1 0 7) ∧ ¬ clear.isPlain (locOf 0 0 0) ∧
    covers .half 6 1 = false ∧ covers .half 6 2 = true ∧ covers .half 6 3 = true ∧ covers .half 3 3 = true ∧ covers .dword 3 0 = true :=
  ⟨by decide, by decide, by decide, by decide, by decide, by decide, by decide, by decide, by decide, by decide, by decide, by decide, by decide⟩

theorem witness_RoundTripAndLaneIsolation : clear.cfg.Wf ∧ clear.memWf = true ∧ clear.busy = false ∧ clear.ls = .up ∧ clear.isPlain (locOf 1 0 7) ∧
    (7 : BitVec 12).toNat % widthBytes .byte = 0 ∧ (6 : BitVec 12).toNat % widthBytes .half = 0 ∧ (4 : BitVec 12).toNat % widthBytes .dword = 0 := by decide

/-- The expected slot at its last function, and its neighbours. -/
theorem witness_MapirqNamesTheInterrupt : up.cfg.Wf ∧ up.busy = false ∧ up.ls = .up ∧ up.inputs = [] ∧ (1 : Byte).toNat = 1 ∧ (7 : Byte).toNat / 8 = 0 ∧
    (8 : Byte).toNat / 8 ≠ 0 ∧ (0 : Byte).toNat ≠ 1 := by decide

/-- MAPIRQ(0,0) and its second turn; an expected and an unexpected (bus, slot), housekeeping on and off. -/
theorem witness_MapirqRequestsAndFrame : clear.cfg.Wf ∧ clear.memWf = true ∧ clear.busy = false ∧ clear.ls = .up ∧ slotOf 7 = 0 ∧ slotOf 8 ≠ 0 ∧
    paused.cfg.Wf ∧ paused.memWf = true ∧ paused.fixup = true ∧ paused.turnNext [] ∧ clear.cfg.housekeepUnexpected = true ∧
    ({ clear with cfg := { cfg with housekeepUnexpected := false } } : State).cfg.Wf ∧
    ¬(((1 : Byte) = 1 ∧ slotOf 8 = 0) ∨ ({ clear with cfg := { cfg with housekeepUnexpected := false } } : State).cfg.housekeepUnexpected = true) ∧
    BitVec.ofNat 26 (0x100014 / 4) ∉ houseLocs up.cfg 1 (slotOf 7 ++ 0#3) :=
  ⟨by decide, by decide, by decide, by decide, by decide, by decide, by decide, by decide, rfl, .inl ⟨rfl, rfl⟩, by decide, by decide, by decide, by decide⟩

theorem witness_HousekeepIssuesFourteenRequests : clear.cfg.Wf ∧ clear.memWf = true ∧ BitVec.ofNat 26 (0x100040 / 4) ∉ houseLocs clear.cfg 1 0 ∧
    BitVec.ofNat 26 (0x10003C / 4) ∈ houseLocs clear.cfg 1 0 := by decide

/-- The five bytes are apart in the default Cfg, and in one whose offsets stand in one dword but for the command register. -/
theorem witness_HousekeepProgramsAPlainFunction :
    let s : State := { clear with plain := [locOf 1 0 0x04, locOf 1 0 0x0C, locOf 1 0 0x3C] }
    let c : Cfg := { cfg with pciInterruptLine := 0x0E }
    s.cfg.Wf ∧ s.memWf = true ∧ [s.cfg.pciCacheLineSize.toNat, s.cfg.pciLatencyTimer.toNat, s.cfg.pciCommand.toNat, s.cfg.pciCommand.toNat + 1,
      s.cfg.pciInterruptLine.toNat].Nodup ∧ (∀ loc ∈ houseLocs s.cfg 1 0, s.isPlain loc) ∧
    c.Wf ∧ [c.pciCacheLineSize.toNat, c.pciLatencyTimer.toNat, c.pciCommand.toNat, c.pciCommand.toNat + 1, c.pciInterruptLine.toNat].Nodup :=
  ⟨cfg_wf, by decide, by decide,
    by intro loc h; simp only [houseLocs, List.mem_cons, List.not_mem_nil, or_false] at h; rcases h with rfl | rfl | rfl | rfl <;> decide,
    by decide, by decide⟩

/-- The hypothesis of every statement about one master-port operation, one row or one unit: the parameters are well formed. -/
theorem witness_wellFormedCfg : bench.cfg.Wf ∧ up.cfg.Wf ∧ cfg.onchipSize = 0 ∧ ({ cfg with onchipBase := 0x10130000, onchipSize := 0x30000 } : Cfg).Wf :=
  ⟨cfg_wf, cfg_wf, rfl, by decide⟩

theorem witness_RootFixupOpensTheInboundBar : up.cfg.Wf ∧ up.ss.bar0setup ≠ up.cfg.bar0Mask2g ||| up.cfg.bar0En := by decide

theorem witness_IgnoredFieldsHaveNoEffect : slotOf 0x18 = slotOf 0x1F ∧ (0x18 : Byte) ≠ 0x1F ∧ paused.fixup = true ∧ paused.inputs = [] := by decide

theorem witness_TokenFields : bench.cfg.Wf ∧ bench.cfg.tokenEn = 0x80000000 := by decide

/-- Two triples that give one token (bits 1:0 of off), and two that do not. -/
theorem witness_TokenIsPureAndInjective : bench.cfg.Wf ∧ up.cfg = bench.cfg ∧ (0x104 : BitVec 12).extractLsb' 2 10 = (0x107 : BitVec 12).extractLsb' 2 10 ∧
    (0x104 : BitVec 12).extractLsb' 2 10 ≠ (0x204 : BitVec 12).extractLsb' 2 10 := by decide

/-- The lanes at their ends: a half-word at lane 3 covers only that lane. -/
theorem witness_LaneOperations : Width.byte ≠ .dword ∧ Width.half ≠ .dword ∧ writtenByte .half 3 0x12345678 0xBEEF 3 = 0xEF ∧
    writtenByte .half 3 0x12345678 0xBEEF 2 = 0x34 ∧ writtenByte .byte 0 0x12345678 0xAB 0 = 0xAB := by decide

theorem witness_BringupRows1To5And9To11 : (stage 1).cfg.Wf ∧ (stage 11).cfg.Wf :=
  ⟨cfg_wf, cfg_wf⟩

/-- One sample a clause, each one bit away from the other branch. -/
theorem witness_SampleRows12And25 : (stage 12).cfg.Wf ∧ ({ stage 12 with draws := [0xFF7FFFFF] } : State).drawAt 0 &&& cfg.mPllLock = 0 ∧
    ({ stage 12 with draws := [0x00800000] } : State).drawAt 0 &&& cfg.mPllLock ≠ 0 ∧
    ({ stage 25 with draws := [0xFFFFFFFE] } : State).drawAt 0 &&& cfg.mLinkUp = 0 ∧
    ({ stage 25 with draws := [1] } : State).drawAt 0 &&& cfg.mLinkUp ≠ 0 := by decide

theorem witness_DisableRows13And14And26To29 : (stage 13).cfg.Wf ∧ (stage 29).cfg.Wf :=
  ⟨cfg_wf, cfg_wf⟩

theorem witness_BringupRows15To24 : (stage 15).cfg.Wf ∧ (stage 24).cfg.Wf :=
  ⟨cfg_wf, cfg_wf⟩

theorem witness_WindowRows30To37 : (stage 30).cfg.Wf ∧ (stage 37).cfg.Wf :=
  ⟨cfg_wf, cfg_wf⟩

theorem witness_WincfgWritesTheWindows : bench.cfg.Wf ∧ bench.registered = false := by decide

/-- Ten busy answers, then an idle or a busy one: both ends of R221. -/
theorem witness_WaitPhyIdlePollsAtMostTheBound : (waitAnswers cfg (List.replicate 10 0x80000000) 0x7FFFFFFF true) ∧
    (waitAnswers cfg (List.replicate 10 0x80000000) 0x80000000 false) ∧ waitAnswers cfg [] 0 true :=
  ⟨⟨by decide, tenBusy, by decide⟩, ⟨by decide, tenBusy, by decide⟩, ⟨by decide, fun u h => absurd h (List.not_mem_nil), by decide⟩⟩

theorem witness_CalibrateWaitsWritesWaits : bench.cfg.Wf ∧ waitAnswers cfg [] 0 true ∧ waitAnswers cfg (List.replicate 10 0x80000000) 0x80000000 false :=
  ⟨cfg_wf, ⟨by decide, fun u h => absurd h (List.not_mem_nil), by decide⟩, ⟨by decide, tenBusy, by decide⟩⟩

/-- Both branches of the bound on delays. -/
theorem witness_CalibrateIsBounded : bench.cfg.Wf ∧ bench.cfg.tBusy ≠ bench.cfg.tPhywr ∧ ({ cfg with tPhywr := 100 } : Cfg).Wf ∧
    ok (exec (.calibrate 0x68 0xB4) { bench with draws := [0, 0] }) (fun _ => true) = true ∧
    (∀ j ∈ List.range 11, ({ bench with draws := List.replicate 11 0x80000000 } : State).drawAt j &&& cfg.mPhyBusy ≠ 0) ∧ cfg.waitretryMax = 10 :=
  ⟨by decide, by decide, by decide, by decide, by decide, by decide⟩

theorem witness_CalSeqIsThreeCalibrations : ({ bench with draws := [0x7FFFFFFF, 0, 0, 0, 0, 0] } : State).draws = 0x7FFFFFFF :: 0 :: 0 :: 0 :: 0 :: 0 :: [] ∧
    (([0x7FFFFFFF, 0, 0, 0, 0, 0] : List Word).all fun v => v &&& cfg.mPhyBusy == 0) = true ∧ bench.cfg.Wf := by decide

/-- A token in CFGADDR, and an offset that names no register of the window. -/
theorem witness_BridgeReads : up.cfg.Wf ∧ ({ up with br := { up.br with cfgaddr := 0x8FFFFFFC } } : State).br.cfgaddr = token cfg 255 0xFF 0xFFF ∧
    (0x44 : Half) ∉ up.cfg.brOffsets ∧ (0x28 : Half) ∈ up.cfg.brOffsets := by decide

/-- A token; an offset outside the window; no enable bit; an enable bit with a bit outside the token's fields. -/
theorem witness_BridgeWrites : clear.cfg.Wf ∧ ({ clear with br := { clear.br with cfgaddr := 0x80010004 } } : State).br.cfgaddr = token cfg 1 0 4 ∧
    clear.memWf = true ∧ (0x44 : Half) ∉ up.cfg.brOffsets ∧ (0x0FFFFFFC : Word) &&& cfg.tokenEn = 0 ∧
    (0x80010005 : Word) &&& ~~~(0x0FFFFFFC ||| cfg.tokenEn) ≠ 0 ∧ (0x80010004 : Word) &&& ~~~(0x0FFFFFFC ||| cfg.tokenEn) = 0 := by decide

theorem witness_BridgeModify : up.cfg.Wf ∧ ({ up with br := { up.br with cfgaddr := 0x80010004 } } : State).br.cfgaddr = token cfg 1 0 4 ∧
    (0x44 : Half) ∉ up.cfg.brOffsets := by decide

theorem witness_SubsystemAndSystemControlReads : bench.cfg.Wf ∧ (0x44 : Half) ∉ bench.cfg.ssOffsets ∧ (0x44 : Half) ∉ bench.cfg.scOffsets ∧
    bench.cfg.offPhycfg ∈ bench.cfg.ssOffsets ∧ bench.cfg.offPpllcfg1 ∈ bench.cfg.scOffsets := by decide

/-- An offset outside the window, and a PHYCFG word without the write-mode flag. -/
theorem witness_SubsystemWrites : bench.cfg.Wf ∧ (0x44 : Half) ∉ bench.cfg.ssOffsets ∧ (0xFF7FFFFF : Word) &&& bench.cfg.phyWriteMode = 0 ∧
    bench.cfg.phyWriteMode ≠ 0 ∧ (0x00800000 : Word) &&& bench.cfg.phyWriteMode ≠ 0 := by decide

theorem witness_SystemControlModifies : bench.cfg.Wf ∧ (0x44 : Half) ∉ bench.cfg.scOffsets := by decide

/-- A closed BAR, an open one, and the two words the block writes. -/
theorem witness_InboundWindow : bench.ss.bar0setup &&& bench.cfg.bar0En = 0 ∧ (0x00FF0001 : Word) &&& bench.cfg.bar0En ≠ 0 ∧ up.cfg.Wf ∧
    ({ up with ss := { up.ss with bar0setup := 0x7FFF0001 } } : State).ss.bar0setup = up.cfg.bar0Mask2g ||| up.cfg.bar0En ∧
    up.cfg.bar0En.toNat < 2 ^ 16 ∧ up.ss.imbasebar0 = 0 ∧ up.ss.bar0setup = up.cfg.bar0Mask2g ∧
    (0x7FFFFFFF : Word).toNat < up.cfg.inbSize ∧ ¬ (0x80000000 : Word).toNat < up.cfg.inbSize := by decide

/-- An address inside ONCHIP_REGS, next to the I/O window. -/
theorem witness_AtMostOneOutboundWindowClaims :
    let s : State := { up with cfg := { cfg with onchipBase := 0x10130000, onchipSize := 0x30000 } }
    s.cfg.Wf ∧ s.br.iobase = s.cfg.ioWinBase ∧ ok (exec (.outbMemXlate 0x1015FFFF) s) (fun _ => true) = true ∧
    ok (exec (.outbIoXlate 0x1015FFFF) s) (fun _ => true) = true ∧ s.cfg.onchipBase ≤ (0x1015FFFF : Word).toNat ∧
    (0x1015FFFF : Word).toNat < s.cfg.onchipBase + s.cfg.onchipSize := by decide

theorem witness_WireWordsArrive : bench.cfg.tokenEn = 0x80000000 ∧ bench.cfg.phyWriteMode = 0x00800000 ∧ bench.cfg.phyAddrShift = 8 ∧
    bench.cfg.phyDataShift = 0 ∧ bench.cfg.bar0En = 1 ∧ (1 : BitVec 1) = 1 := by decide

end Sys2Proof.Tests
end

section
/-! PROOF. What a step does with the input at its head: a port word or a hardware reset (the block's own turn stands in Laws: step_row,
step_resume); and the statement O5, that a step is the fetched operation and nothing more. -/

namespace Sys2Proof.Machine

/-- R20, R415: a port word at the head of the inputs is fetched, a command word only while the port is free. -/
theorem fetch_word {s : State} {p : PortWord} {rest : List Input} (hi : s.inputs = .word p :: rest)
    (hfree : (∃ w, p = .command w) → s.busy = false) : fetch s = fetchPort p { s with inputs := rest } := by
  unfold fetch
  rw [hi]
  cases p with
  | command w => exact if_neg (by simp [hfree ⟨w, rfl⟩])
  | _ => rfl

/-- R151: a fetched port word is executed as the operation that it decodes to. -/
theorem step_word {s : State} {p : PortWord} {rest : List Input} {i : Instr} (hi : s.inputs = .word p :: rest)
    (hd : decode p = .ok i) (hfree : (∃ w, p = .command w) → s.busy = false) :
    step s = exec i { s with inputs := rest } := by
  simp only [step, fetch_word hi hfree, fetchPort, hd]

/-- R400: a hardware reset at the head of the inputs is the whole step. -/
theorem step_reset {s : State} {rest : List Input} (hi : s.inputs = .reset :: rest) :
    step s = .next { s with inputs := rest }.hardwareReset := by
  simp only [step, fetch, hi]

/-- Settles O5: one law for each kind of head that the inputs can have. -/
theorem stepRunsTheFetchedInstruction : Obligations.StepRunsTheFetchedInstruction :=
  ⟨fun _ _ _ _ hi hd hfree => step_word hi hd hfree,
    fun _ _ _ ht hf hd => step_row ht hf hd,
    fun _ _ ht hf => step_resume ht hf,
    fun _ _ hi => step_reset hi⟩

end Sys2Proof.Machine
end

section
/-! PROOF. What a step can be from any state; what no operation undoes, in one relation between the state before and after (State.Persists); and
the statements O9 and O12, which read it off. -/

namespace Sys2Proof.Machine

/-- Everything that a step can be, whatever the outside presents: a hardware reset, the rest of a MAPIRQ(0,0), or one operation executed. -/
theorem step_next_cases {s t : State} (h : step s = .next t) :
    (∃ rest, s.inputs = .reset :: rest ∧ t = { s with inputs := rest }.hardwareReset) ∨
    ∃ rest, t = { s with inputs := rest }.mapirqResume ∨ ∃ i, exec i { s with inputs := rest } = .next t := by
  have turn : ∀ rest, s.turnNext rest →
      t = { s with inputs := rest }.mapirqResume ∨ ∃ i, exec i { s with inputs := rest } = .next t := by
    intro rest ht
    rw [step_of_turn s rest ht] at h
    split at h
    · exact .inl (Host.Outcome.next.inj h).symm
    · split at h
      · next i _ => exact .inr ⟨i, h⟩
      · cases h
  cases hi : s.inputs with
  | nil => exact .inr ⟨[], turn [] (.inl ⟨hi, rfl⟩)⟩
  | cons x rest =>
    cases x with
    | gap => exact .inr ⟨rest, turn rest (.inr (.inl hi))⟩
    | reset => exact .inl ⟨rest, rfl, (Host.Outcome.next.inj ((step_reset hi).symm.trans h)).symm⟩
    | word p =>
      by_cases hfree : (∃ w, p = .command w) → s.busy = false
      · cases hd : decode p with
        | ok i => exact .inr ⟨rest, .inr ⟨i, (step_word hi hd hfree).symm.trans h⟩⟩
        | error r => simp [step, fetch_word hi hfree, fetchPort, hd] at h
      · obtain ⟨⟨w, rfl⟩, hb⟩ := Classical.not_imp.mp hfree
        exact .inr ⟨s.inputs, turn s.inputs (.inr (.inr ⟨by simpa using hb, rfl, w, rest, hi⟩))⟩

/-- R37, R67: what no operation can undo: a set attached, registered or cal_fail flag, and the canonical form of the byte store. -/
structure State.Persists (s t : State) : Prop where
  attached : s.attached = true → t.attached = true
  registered : s.registered = true → t.registered = true
  calFail : s.calFail = true → t.calFail = true
  memWf : s.memWf = true → t.memWf = true

namespace State.Persists

theorem trans {s t u : State} (h : s.Persists t) (k : t.Persists u) : s.Persists u :=
  ⟨k.attached ∘ h.attached, k.registered ∘ h.registered, k.calFail ∘ h.calFail, k.memWf ∘ h.memWf⟩

/-- An operation that leaves the three flags as they are. -/
theorem of_flags {s t : State} (hm : s.memWf = true → t.memWf = true) (ha : t.attached = s.attached := by simp)
    (hr : t.registered = s.registered := by simp) (hc : t.calFail = s.calFail := by simp) : s.Persists t :=
  ⟨ha.trans, hr.trans, hc.trans, hm⟩

/-- An operation that leaves the three flags and the byte store as they are. -/
theorem frame {s t : State} (hm : t.mem = s.mem := by simp) (he : t.epoch = s.epoch := by simp)
    (ha : t.attached = s.attached := by simp) (hr : t.registered = s.registered := by simp)
    (hc : t.calFail = s.calFail := by simp) : s.Persists t :=
  of_flags (State.memWf_congr hm he).trans ha hr hc

theorem refl (s : State) : s.Persists s := ⟨id, id, id, id⟩

theorem brWr32 {s t : State} {off : Half} {v : Word} (h : s.Persists t) : s.Persists (t.brWr32 off v) :=
  h.trans (of_flags (t.brWr32_mem_wf off v))

theorem brMod32 {s t : State} {off : Half} {clr set : Word} (h : s.Persists t) : s.Persists (t.brMod32 off clr set) :=
  h.trans (of_flags (t.brMod32_mem_wf off clr set))

theorem ssWr32 {s t : State} {off : Half} {v : Word} (h : s.Persists t) : s.Persists (t.ssWr32 off v) := h.trans frame

theorem register {s t : State} (h : s.Persists t) : s.Persists t.register :=
  h.trans ⟨id, fun _ => rfl, id, id⟩

theorem setAttached {s t : State} (h : s.Persists t) : s.Persists t.setAttached :=
  h.trans ⟨fun _ => rfl, id, id, id⟩

theorem goto {s t : State} {n : BitVec 6} (h : s.Persists t) : s.Persists (t.goto n) := h.trans frame

theorem halt {s t : State} {l : LinkState} {o : BitVec 2} (h : s.Persists t) : s.Persists (t.halt l o) := h.trans frame

theorem complete {s t : State} {status aux : Byte} {rdata : Word} (h : s.Persists t) :
    s.Persists (t.complete status aux rdata) := h.trans frame

theorem refuse {s t : State} {c : Condition} {status : Byte} (h : s.Persists t) : s.Persists (t.refuse c status) :=
  h.trans frame

theorem calTimeout (s : State) (a : Byte) (phase : Nat) : s.Persists (s.calTimeout a phase) := ⟨id, id, fun _ => rfl, id⟩

theorem waitPhyIdle (s : State) : s.Persists s.waitPhyIdle := frame

theorem calFinish (s : State) (a d : Byte) : s.Persists (s.calFinish a d) := by
  have waited : s.Persists (s.phyWrite a d).waitPhyIdle := frame
  unfold State.calFinish
  dsimp only
  split
  · exact waited.trans (calTimeout _ a 1)
  · exact waited.trans frame

theorem calibrate (s : State) (a d : Byte) : s.Persists (s.calibrate a d) := by
  have waited : s.Persists { s with work := { s.work with cala := a, cald := d } }.waitPhyIdle := frame
  unfold State.calibrate
  dsimp only
  split
  · exact waited.trans (calTimeout _ a 0)
  · exact waited.trans (calFinish _ a d)

theorem calSeq (s : State) : s.Persists s.calSeq :=
  ((calibrate s _ _).trans (calibrate _ _ _)).trans (calibrate _ _ _)

theorem wincfg (s : State) : s.Persists s.wincfg := by
  have windows : s.Persists ((s.brWr32 s.cfg.offMembase s.cfg.membaseSentinel).brWr32 s.cfg.offIobase s.cfg.ioWinBase) :=
    (refl s).brWr32.brWr32
  exact windows.ssWr32.ssWr32.ssWr32.ssWr32.ssWr32.brMod32.register

theorem rootFixup (s : State) : s.Persists s.rootFixup := frame

theorem housekeep (s : State) (bus devfn irq : Byte) : s.Persists (s.housekeep bus devfn irq) :=
  of_flags (s.housekeep_mem_wf bus devfn irq)

theorem mapirqFinish (s : State) (bus : Byte) (slot : BitVec 5) (irq : Byte) : s.Persists (s.mapirqFinish bus slot irq) :=
  of_flags (s.mapirqFinish_mem_wf bus slot irq)

theorem mapirqResume (s : State) : s.Persists s.mapirqResume := of_flags s.mapirqResume_mem_wf

theorem attachBody (s : State) : s.Persists s.attachBody := by
  unfold State.attachBody
  split
  · exact (refl s).refuse
  · have sampled : s.Persists s.takeResOk := frame
    split
    · exact sampled.setAttached.goto
    · exact sampled.refuse

theorem mapirqRun (s : State) (bus : Byte) (slot : BitVec 5) : s.Persists (s.mapirqRun bus slot) := by
  unfold State.mapirqRun
  split
  · exact frame
  · split
    · exact mapirqFinish _ _ _ _
    · have logged : s.Persists (s.logUnexpected bus slot) := frame
      exact logged.trans (mapirqFinish _ _ _ _)

theorem mapirqBody (s : State) (bus : Byte) (slot : BitVec 5) : s.Persists (s.mapirqBody bus slot) := by
  unfold State.mapirqBody
  split
  · exact (refl s).refuse
  · exact mapirqRun _ _ _

theorem cfgrdBody (s : State) (w : Width) (bus devfn : Byte) (off : BitVec 12) :
    s.Persists (s.cfgrdBody w bus devfn off) := by
  unfold State.cfgrdBody
  split
  · exact (refl s).refuse
  · have read : s.Persists (s.cfgRead w bus devfn off) := of_flags (s.cfgRead_mem_wf w bus devfn off)
    exact read.complete

theorem cfgwrBody (s : State) (w : Width) (bus devfn : Byte) (off : BitVec 12) (v : Word) :
    s.Persists (s.cfgwrBody w bus devfn off v) := by
  unfold State.cfgwrBody
  split
  · exact (refl s).refuse
  · have written : s.Persists (s.cfgWrite w bus devfn off v) := of_flags (s.cfgWrite_mem_wf w bus devfn off v)
    exact written.complete

theorem illegalBody (s : State) : s.Persists s.illegalBody := (refl s).refuse

theorem accept {s t : State} {op : BitVec 4} {wdata : Word} {bus devfn : Byte} {off : BitVec 12}
    (h : (s.accept op wdata bus devfn off).Persists t) : s.Persists t :=
  have accepted : s.Persists (s.accept op wdata bus devfn off) := frame
  accepted.trans h

/-- A command on its port: held while the port is busy, run where it is free (R415). -/
theorem onPort {s : State} {body : State → State} (h : s.Persists (body s)) : s.Persists (s.onPort body) := by
  unfold State.onPort
  split
  · exact refl s
  · exact h

end State.Persists

/-- The five things that the body of a command can be (R152, R163). -/
theorem State.commandBody_forms (s : State) (op : BitVec 4) (wdata : Word) (bus devfn : Byte) (off : BitVec 12) {P : State → Prop}
    (attach : P s.attachBody) (mapirq : P (s.mapirqBody bus (slotOf devfn))) (read : ∀ w, P (s.cfgrdBody w bus devfn off))
    (write : ∀ w, P (s.cfgwrBody w bus devfn off wdata)) (illegal : P s.illegalBody) :
    P (s.commandBody op wdata bus devfn off) := by
  unfold State.commandBody
  split
  · exact attach
  · exact mapirq
  · exact read .byte
  · exact read .half
  · exact read .dword
  · exact write .byte
  · exact write .half
  · exact write .dword
  · exact illegal

theorem State.Persists.commandBody (s : State) (op : BitVec 4) (wdata : Word) (bus devfn : Byte) (off : BitVec 12) :
    s.Persists (s.commandBody op wdata bus devfn off) :=
  s.commandBody_forms op wdata bus devfn off (attachBody s) (mapirqBody s _ _) (fun w => cfgrdBody s w _ _ _)
    (fun w => cfgwrBody s w _ _ _ _) (illegalBody s)

/-- R191, R202: a bridge write that has a meaning is the write. -/
theorem execBrWr32_next {addr : Half} {v : Word} {s t : State} (h : execBrWr32 addr v s = .next t) : t = s.brWr32 addr v := by
  unfold execBrWr32 at h
  split at h
  · cases h
  · exact (Host.Outcome.next.inj h).symm

/-- R192, R202: a bridge modify that has a meaning is the modify. -/
theorem execBrMod32_next {addr : Half} {clr set : Word} {s t : State} (h : execBrMod32 addr clr set s = .next t) :
    t = s.brMod32 addr clr set := by
  unfold execBrMod32 at h
  split at h
  · cases h
  · exact (Host.Outcome.next.inj h).symm

/-- R194, R202: a subsystem write that has a meaning is the write. -/
theorem execSsWr32_next {addr : Half} {v : Word} {s t : State} (h : execSsWr32 addr v s = .next t) : t = s.ssWr32 addr v := by
  unfold execSsWr32 at h
  split at h
  · cases h
  · exact (Host.Outcome.next.inj h).symm

/-- R196, R202: a system-control modify that has a meaning is the modify. -/
theorem execScMod32_next {addr : Half} {clr set : Word} {s t : State} (h : execScMod32 addr clr set s = .next t) :
    t = s.scMod32 addr clr set := by
  unfold execScMod32 at h
  split at h
  · cases h
  · exact (Host.Outcome.next.inj h).symm

theorem State.Persists.of_next {s t u : State} (h : (.next u : Host.Outcome State Fault Refusal) = .next t) (k : s.Persists u) : s.Persists t :=
  Host.Outcome.next.inj h ▸ k

/-- No operation undoes what R37 and R67 keep. -/
theorem exec_persists {i : Instr} {s t : State} (h : exec i s = .next t) : s.Persists t := by
  cases i with
  | attach => exact .of_next h (.onPort (.accept (.attachBody _)))
  | mapirq => exact .of_next h (.onPort (.accept (.mapirqBody _ _ _)))
  | cfgrdB | cfgrdH | cfgrdW => exact .of_next h (.onPort (.accept (.cfgrdBody _ _ _ _ _)))
  | cfgwrB | cfgwrH | cfgwrW => exact .of_next h (.onPort (.accept (.cfgwrBody _ _ _ _ _ _)))
  | illegal0 | illegal3 | illegal7 | illegalB | illegalCF => exact .of_next h (.onPort (.accept (.illegalBody _)))
  | fCmd => exact .of_next h (.onPort (.accept (.commandBody _ _ _ _ _ _)))
  | brWr32 => exact execBrWr32_next h ▸ .brWr32 (.refl s)
  | brMod32 => exact execBrMod32_next h ▸ .brMod32 (.refl s)
  | ssWr32 => exact execSsWr32_next h ▸ .frame
  | scMod32 => exact execScMod32_next h ▸ .frame
  | register => exact .of_next h (.register (.refl s))
  | brRd32 | ssRd32 | scRd32 | rstAssert | rstDeassert | delay | log => exact .of_next h .frame
  | inbXlate | outbMemXlate | outbIoXlate | xreqReserved => exact .of_next h .frame
  | seqIdle | seq01 | seq02 | seq03 | seq04 | seq05 | seq09 | seq10 | seq11 | seq13 | seq14 | seq15 | seq16 | seq17 | seq18 | seq19
  | seq20 | seq21 | seq22 | seq23 | seq24 | seq26 | seq27 | seq28 | seq29 | seq32 | seq33 | seq34 | seq35 | seq36 =>
    exact .of_next h .frame
  | seq06 | seq07 | seq08 => exact .of_next h (.goto (.calibrate s _ _))
  | seq12 | seq25 =>
    have sampled := Host.Outcome.next.inj h
    split at sampled <;> exact sampled ▸ .frame
  | seq30 | seq31 => exact .of_next h (.goto (.brWr32 (.refl s)))
  | seq37 => exact .of_next h (.goto (.brMod32 (.refl s)))
  | seq38 => exact .of_next h (.halt (.register (.refl s)))
  | fToken | fPhyw | fBar | fDevfn | fRes | token | laneExtract | laneMerge => exact .of_next h .frame
  | waitPhyIdle => exact .of_next h (.waitPhyIdle s)
  | calibrate => exact .of_next h (.calibrate s _ _)
  | calSeq => exact .of_next h (.calSeq s)
  | wincfg => exact .of_next h (.wincfg s)
  | rootFixup => exact .of_next h (.rootFixup s)
  | housekeep => exact .of_next h (.housekeep s _ _ _)

/-- A step that is not a hardware reset undoes nothing of what R37 and R67 keep (R257, R400). -/
theorem step_persists {s t : State} (h : step s = .next t) :
    (∃ rest, s.inputs = .reset :: rest ∧ t = { s with inputs := rest }.hardwareReset) ∨ s.Persists t := by
  refine (step_next_cases h).imp_right ?_
  rintro ⟨rest, hf⟩
  have taken : s.Persists { s with inputs := rest } := .frame
  rcases hf with rfl | ⟨i, hx⟩
  · exact taken.trans (.mapirqResume _)
  · exact taken.trans (exec_persists hx)

/-- Settles O9: the flags are among what every step but a hardware reset keeps. -/
theorem flagsAreSticky : Obligations.FlagsAreSticky := by
  intro s t h hr
  rcases step_persists h with ⟨rest, hi, -⟩ | kept
  · simp [State.notResetting, hi] at hr
  · exact ⟨kept.attached, kept.registered, kept.calFail⟩

/-- Settles O12: a hardware reset empties the store, and every other step keeps its form. -/
theorem memoryStaysCanonical : Obligations.MemoryStaysCanonical := by
  intro s t hm h
  rcases step_persists h with ⟨rest, -, rfl⟩ | kept
  · rfl
  · exact kept.memWf hm

end Sys2Proof.Machine
end

section
/-! PROOF. The Link State after every operation (lsAfter), and the statement O13. -/

namespace Sys2Proof.Machine

/-- R32, R243: the Link State that an operation leaves: six rows of the step table set it, and nothing else does. -/
def lsAfter (i : Instr) (l : LinkState) : LinkState :=
  match i with
  | .seq05 => .calibrating
  | .seq11 => .pllWait
  | .seq14 | .seq29 => .disabled
  | .seq24 => .linkPoll
  | .seq38 => .up
  | _ => l

theorem State.commandBody_ls (s : State) (op : BitVec 4) (wdata : Word) (bus devfn : Byte) (off : BitVec 12) :
    (s.commandBody op wdata bus devfn off).ls = s.ls :=
  s.commandBody_forms op wdata bus devfn off (P := fun t => t.ls = s.ls) (by simp) (by simp) (by simp) (by simp) (by simp)

theorem State.onPort_ls {s : State} {body : State → State} (h : (body s).ls = s.ls) : (s.onPort body).ls = s.ls := by
  unfold State.onPort
  split
  · rfl
  · exact h

theorem ls_of_next {t u : State} {l : LinkState} (h : (.next u : Host.Outcome State Fault Refusal) = .next t)
    (k : u.ls = l := by simp) : t.ls = l :=
  Host.Outcome.next.inj h ▸ k

/-- The Link State after any operation: six rows set it. -/
theorem exec_ls {i : Instr} {s t : State} (h : exec i s = .next t) : t.ls = lsAfter i s.ls := by
  cases i with
  | attach | mapirq | cfgrdB | cfgrdH | cfgrdW | cfgwrB | cfgwrH | cfgwrW => exact ls_of_next h (State.onPort_ls (by simp))
  | illegal0 | illegal3 | illegal7 | illegalB | illegalCF => exact ls_of_next h (State.onPort_ls (by simp))
  | fCmd => exact ls_of_next h (State.onPort_ls (State.commandBody_ls _ _ _ _ _ _))
  | brWr32 => rw [execBrWr32_next h]; rfl
  | brMod32 => rw [execBrMod32_next h]; rfl
  | ssWr32 => rw [execSsWr32_next h]; rfl
  | scMod32 => rw [execScMod32_next h]; rfl
  | seq12 | seq25 =>
    have sampled := Host.Outcome.next.inj h
    split at sampled <;> exact sampled ▸ rfl
  | seq06 | seq07 | seq08 => exact ls_of_next h (by simp [lsAfter])
  | waitPhyIdle | calibrate | calSeq | rootFixup | wincfg | housekeep => exact ls_of_next h (by simp [lsAfter])
  | _ => exact ls_of_next h rfl

/-- R32, R243: a row leaves the Link State of its stage as it is or takes it along one of the six transitions. -/
theorem lsAfter_row {n : BitVec 6} {i : Instr} (hd : decodeStep n = .ok i) :
    lsAfter i (lsDuring n) = lsDuring n ∨ LinkState.mayBecome (lsDuring n) (lsAfter i (lsDuring n)) = true := by
  have table : ∀ n : BitVec 6, ∀ i ∈ (decodeStep n).toOption,
      lsAfter i (lsDuring n) = lsDuring n ∨ LinkState.mayBecome (lsDuring n) (lsAfter i (lsDuring n)) = true := by decide
  exact table n i (by rw [hd]; rfl)

/-- R32: the sequencer's turn, idle or at a row, from a state of the control invariant. -/
theorem row_ls {s : State} {i : Instr} (hinv : s.ControlInv) (hd : decodeStep s.seq = .ok i) :
    lsAfter i s.ls = s.ls ∨ LinkState.mayBecome s.ls (lsAfter i s.ls) = true := by
  obtain ⟨-, -, -, hstage, -⟩ := hinv
  by_cases h0 : s.seq = 0
  · rw [h0] at hd
    obtain rfl : Instr.seqIdle = i := Except.ok.inj hd
    exact .inl rfl
  · rw [(hstage h0).1]
    exact lsAfter_row hd

/-- Settles O13: only the rows of the step table touch the Link State, each within its stage. -/
theorem linkStateFollowsItsTransitions : Obligations.LinkStateFollowsItsTransitions := by
  intro s t hinv hout hr h
  rcases step_cases s hout with ⟨rest, hi, -⟩ | ⟨w, rest, hit, addr, -, hs⟩ | ⟨w, rest, -, -, hs⟩ | ⟨rest, -, -, hs⟩
  · simp [State.notResetting, hi] at hr
  · exact .inl (ls_of_next (hs.symm.trans h))
  · rw [h, exec_decodeCommand] at hs
    exact .inl (ls_of_next hs.symm (State.onPort_ls (State.commandBody_ls _ _ _ _ _ _)))
  · rw [hs] at h
    split at h
    · exact .inl (ls_of_next h)
    · split at h
      · next i hd =>
        rw [exec_ls h]
        exact row_ls hinv hd
      · cases h

end Sys2Proof.Machine
end

section
/-! PROOF. The state right after hardware reset: the statements O7 and O11. -/

namespace Sys2Proof.Machine

/-- Settles O7: the reset values are those of the definition, and the one step with nothing presented is the idle row. -/
theorem resetLeavesTheBlockIdle : Obligations.ResetLeavesTheBlockIdle := by
  refine ⟨fun cfg n => ⟨rfl, rfl, rfl, rfl, rfl, rfl, ?_⟩, rfl⟩
  exact step_row (i := .seqIdle) (.inl ⟨rfl, rfl⟩) rfl rfl

/-- R33: no stage of bring-up has begun while the step index is 0. -/
theorem State.not_seqIn_of_idle {s : State} {lo hi : Nat} (h : s.seq = 0) (hlo : 0 < lo) : ¬ s.seqIn lo hi :=
  fun ⟨hle, _⟩ => absurd (h ▸ hle : lo ≤ (0 : BitVec 6).toNat) (Nat.not_le.mpr hlo)

/-- R31, R70: before bring-up the stages ask nothing of the registers. -/
theorem State.bringupInv_of_reset {s : State} (hseq : s.seq = 0) (hls : s.ls = .reset) (hfix : s.fixup = false) : s.BringupInv := by
  have idle {lo hi : Nat} (hlo : 0 < lo) : ¬ s.seqIn lo hi := State.not_seqIn_of_idle hseq hlo
  simp [State.BringupInv, State.ResetLineInv, State.ClockInv, State.WindowInv, idle, hls, hfix]

theorem State.controlInv_afterReset (cfg : Cfg) (n : Nat) : (State.afterReset cfg n).ControlInv := by
  simp [State.ControlInv, State.afterReset]

/-- Settles O11: at reset no stage of bring-up has begun, and the store and the inputs are empty. -/
theorem invariantsHoldAtReset : Obligations.InvariantsHoldAtReset := fun cfg n =>
  ⟨State.controlInv_afterReset cfg n, State.bringupInv_of_reset rfl rfl rfl, rfl, rfl⟩

end Sys2Proof.Machine
end

section
/-! PROOF. Encoder and decoder, port by port, each the inverse of the other: the statements O1, O2 and O3. -/

namespace Sys2Proof

open Laws.TableRow (token_const phyWord_const barWord_const resultWord_const)

/-- R152: the ops 0xC to 0xF are one row of the table, which keeps the low two bits of the op. -/
theorem decodeCommand_reserved {op : BitVec 4} (h : 12 ≤ op.toNat) (wdata : Word) (bus devfn : Byte) (off : BitVec 12) :
    decodeCommand (encodeCommand op wdata bus devfn off) = .illegalCF (op.extractLsb' 0 2) wdata bus devfn off := by
  simp only [decodeCommand, encodeCommand_fields]
  split
  case h_13 => rfl
  all_goals omega

theorem decodeCommand_illegalCF (lo : BitVec 2) (wdata : Word) (bus devfn : Byte) (off : BitVec 12) :
    decodeCommand (encodeCommand (3#2 ++ lo) wdata bus devfn off) = .illegalCF lo wdata bus devfn off := by
  have high : ∀ lo : BitVec 2, 12 ≤ (3#2 ++ lo).toNat := by decide
  rw [decodeCommand_reserved (high lo), extract_append_low]

/-- R156: the decoder of tokens reads the fields of an assembled token. -/
theorem decodeToken_append (ext : BitVec 4) (bus : Byte) (slot : BitVec 5) (func : BitVec 3) (reg : BitVec 6) :
    decodeToken (0x8#4 ++ ext ++ bus ++ slot ++ func ++ reg ++ 0#2) = .ok (.fToken ext bus slot func reg) := by
  rw [decodeToken, if_pos ⟨token_const .., extract_append_low _ _⟩]
  congr 2
  · rw [extract_append_high 22 4 24 _ _ rfl, extract_append_high 16 4 22 _ _ rfl, extract_append_high 13 4 16 _ _ rfl,
      extract_append_high 8 4 13 _ _ rfl, extract_append_high 0 4 8 _ _ rfl, extract_append_low]
  · rw [extract_append_high 14 8 16 _ _ rfl, extract_append_high 8 8 14 _ _ rfl, extract_append_high 5 8 8 _ _ rfl,
      extract_append_high 0 8 5 _ _ rfl, extract_append_low]
  · rw [extract_append_high 9 5 11 _ _ rfl, extract_append_high 3 5 9 _ _ rfl, extract_append_high 0 5 3 _ _ rfl, extract_append_low]
  · rw [extract_append_high 6 3 8 _ _ rfl, extract_append_high 0 3 6 _ _ rfl, extract_append_low]
  · rw [extract_append_high 0 6 2 _ _ rfl, extract_append_low]

theorem decodePhyWord_append (addr data : Byte) : decodePhyWord (0x0080#16 ++ addr ++ data) = .ok (.fPhyw addr data) := by
  rw [decodePhyWord, if_pos (phyWord_const ..), extract_append_low, extract_append_high 0 8 8 _ _ rfl, extract_append_low]

theorem decodeBarWord_append (mask : Half) (en : BitVec 1) : decodeBarWord (mask ++ 0#15 ++ en) = .ok (.fBar mask en) := by
  rw [decodeBarWord, if_pos (barWord_const ..), extract_append_low, extract_append_high 15 16 16 _ _ rfl, extract_append_top 15 _ _ rfl]

theorem decodeDevfn_append (slot : BitVec 5) (func : BitVec 3) : decodeDevfn (slot ++ func) = .fDevfn slot func := by
  rw [decodeDevfn, extract_append_low, extract_append_top 3 _ _ rfl]

theorem decodeResult_append (rdata : Word) (aux status : Byte) :
    decodeResult (rdata ++ 0#16 ++ aux ++ status) = .ok (.fRes rdata aux status) := by
  rw [decodeResult, if_pos (resultWord_const ..), extract_append_low, extract_append_high 0 8 8 _ _ rfl, extract_append_low,
    extract_append_high 24 32 32 _ _ rfl, extract_append_high 16 32 24 _ _ rfl, extract_append_top 16 _ _ rfl]

/-- R151, R169: the operation of every row that has a word is what its port reads from that word. -/
theorem decode_encode {i : Instr} (h : i.hasEncoding = true) : ∃ p, encode i = some p ∧ decode p = .ok i := by
  cases i with
  | attach | mapirq | cfgrdB | cfgrdH | cfgrdW | cfgwrB | cfgwrH | cfgwrW | illegal0 | illegal3 | illegal7 | illegalB =>
    exact ⟨_, rfl, by simp [decode, decodeCommand, encodeCommand_fields]⟩
  | illegalCF => exact ⟨_, rfl, congrArg Except.ok (decodeCommand_illegalCF _ _ _ _ _)⟩
  | brRd32 | brWr32 | ssRd32 | ssWr32 | scRd32 | scMod32 | rstAssert | rstDeassert | delay | log | register =>
    exact ⟨_, rfl, by simp [decode, decodeMaster, encodeMaster_fields]⟩
  | inbXlate | outbMemXlate | outbIoXlate | xreqReserved =>
    exact ⟨_, rfl, by simp [decode, decodeTraffic, encodeTraffic_fields]⟩
  | fToken => exact ⟨_, rfl, decodeToken_append _ _ _ _ _⟩
  | fPhyw => exact ⟨_, rfl, decodePhyWord_append _ _⟩
  | fBar => exact ⟨_, rfl, decodeBarWord_append _ _⟩
  | fDevfn => exact ⟨_, rfl, congrArg Except.ok (decodeDevfn_append _ _)⟩
  | fCmd => exact ⟨_, rfl, by simp [decode, decodeCmdFormat, encodeCommand_fields]⟩
  | fRes => exact ⟨_, rfl, decodeResult_append _ _ _⟩
  | waitPhyIdle | calibrate | calSeq | brMod32 | wincfg | token | laneExtract | laneMerge | rootFixup | housekeep => cases h
  | _ => exact ⟨_, rfl, rfl⟩

/-- R169: an INTERNAL row has no word. -/
theorem encode_internal {i : Instr} (h : i.hasEncoding = false) : encode i = none := by
  cases i with
  | waitPhyIdle | calibrate | calSeq | brMod32 | wincfg | token | laneExtract | laneMerge | rootFixup | housekeep => rfl
  | _ => cases h

/-- Settles O1: the rows with a word come back from their ports, and the others have none. -/
theorem decodeOfEncodeIsTheInstruction : Obligations.DecodeOfEncodeIsTheInstruction :=
  fun _ => ⟨decode_encode, encode_internal⟩

/-- R151: a command word is assembled from an op with the value of its own, and its other fields. -/
theorem encodeCommand_of_op {w : BitVec 64} (op : BitVec 4) (h : (w.extractLsb' 0 4).toNat = op.toNat) :
    encodeCommand op (w.extractLsb' 32 32) (w.extractLsb' 24 8) (w.extractLsb' 16 8) (w.extractLsb' 4 12) = w :=
  BitVec.eq_of_toNat_eq h ▸ encodeCommand_eta w

/-- R161: a traffic word is assembled from a kind with the value of its own, and its address. -/
theorem encodeTraffic_of_kind {w : BitVec 34} (kind : BitVec 2) (h : (w.extractLsb' 0 2).toNat = kind.toNat) :
    encodeTraffic kind (w.extractLsb' 2 32) = w :=
  BitVec.eq_of_toNat_eq h ▸ encodeTraffic_eta w

/-- R168: the operation that a command word decodes to has that word. -/
theorem encode_decodeCommand (w : BitVec 64) : encode (decodeCommand w) = some (.command w) := by
  have reserved : ∀ op : BitVec 4, 12 ≤ op.toNat → op.toNat = (3#2 ++ op.extractLsb' 0 2).toNat := by decide
  unfold decodeCommand
  dsimp only
  split
  case h_13 =>
    simp only [encode]
    rw [encodeCommand_of_op _ (reserved _ (by grind))]
  all_goals
    next hop =>
    simp only [encode]
    rw [encodeCommand_of_op _ hop]

/-- R161: the operation that a traffic word decodes to has that word. -/
theorem encode_decodeTraffic (w : BitVec 34) : encode (decodeTraffic w) = some (.traffic w) := by
  have reserved : ∀ kind : BitVec 2, kind.toNat ≠ 0 → kind.toNat ≠ 1 → kind.toNat ≠ 2 → kind.toNat = 3 := by decide
  unfold decodeTraffic
  dsimp only
  split
  case h_4 h0 h1 h2 =>
    simp only [encode]
    rw [encodeTraffic_of_kind _ (reserved _ h0 h1 h2)]
  all_goals
    next hkind =>
    simp only [encode]
    rw [encodeTraffic_of_kind _ hkind]

/-- Settles O2: the decoders of both ports are total, and the encoder undoes them. -/
theorem everyCommandWordIsOneOperation : Obligations.EveryCommandWordIsOneOperation :=
  ⟨fun w => ⟨_, rfl, encode_decodeCommand w⟩, fun w => ⟨_, rfl, encode_decodeTraffic w⟩⟩

/-- Settles O3: the decoder run on each word. -/
theorem specWordsDecode : Obligations.SpecWordsDecode := by
  unfold Obligations.SpecWordsDecode
  decide

end Sys2Proof
end

section
/-! PROOF. Which words the decoders reject, in arithmetic: the statement O4. -/

namespace Sys2Proof

/-- A decoder that has an operation for the words of `p` and rejects the others has one for exactly those. -/
theorem ok_iff_of_cases {x : Except Reject Instr} {e : Reject} {p : Prop} (hok : p → ∃ i, x = .ok i) (herr : ¬p → x = .error e) :
    (∃ i, x = .ok i) ↔ p := by
  refine ⟨fun ⟨i, hi⟩ => ?_, hok⟩
  by_contra hp
  cases hi.symm.trans (herr hp)

/-- A decoder that has an operation for the words of `p` and rejects the others rejects exactly those. -/
theorem error_iff_of_cases {x : Except Reject Instr} {e : Reject} {p : Prop} (hok : p → ∃ i, x = .ok i) (herr : ¬p → x = .error e) :
    x = .error e ↔ ¬p := by
  refine ⟨fun he hp => ?_, herr⟩
  obtain ⟨i, hi⟩ := hok hp
  cases he.symm.trans hi

theorem ite_ok_iff {p : Prop} [Decidable p] {i : Instr} {e : Reject} :
    (∃ j, (if p then Except.ok i else .error e) = .ok j) ↔ p :=
  ok_iff_of_cases (fun h => ⟨i, if_pos h⟩) (fun h => if_neg h)

/-- A field of a word against a value, in arithmetic. -/
theorem extractLsb'_eq_iff {n : Nat} (w : BitVec n) (s k : Nat) (v : BitVec k) :
    w.extractLsb' s k = v ↔ w.toNat / 2 ^ s % 2 ^ k = v.toNat := by
  rw [← BitVec.toNat_inj, BitVec.extractLsb'_toNat, Nat.shiftRight_eq_div_pow]

theorem masterKind_toNat (w : BitVec 84) : (w.extractLsb' 0 4).toNat = w.toNat % 16 := by
  rw [BitVec.extractLsb'_toNat, Nat.shiftRight_zero]

/-- R160: kinds 0 to 0xA have an operation each. -/
theorem decodeMaster_ok {w : BitVec 84} (h : w.toNat % 16 ≤ 0xA) : ∃ i, decodeMaster w = .ok i := by
  rw [← masterKind_toNat] at h
  unfold decodeMaster
  dsimp only
  split
  case h_12 => grind
  all_goals exact ⟨_, rfl⟩

/-- R160, R163: kinds 0xB to 0xF have none. -/
theorem decodeMaster_reserved {w : BitVec 84} (h : ¬ w.toNat % 16 ≤ 0xA) : decodeMaster w = .error .reservedMreqKind := by
  rw [← masterKind_toNat] at h
  unfold decodeMaster
  dsimp only
  split
  case h_12 => rfl
  all_goals omega

/-- R33: step indices 39 to 63 are no row. -/
theorem decodeStep_reserved {n : BitVec 6} (h : ¬ n.toNat ≤ 38) : decodeStep n = .error .reservedStep := by
  revert n
  decide

/-- R156, R163: a token has the enable bit set and the bits outside its fields clear. -/
theorem decodeToken_ok_iff (w : Word) : (∃ i, decodeToken w = .ok i) ↔ w.toNat / 2 ^ 28 = 8 ∧ w.toNat % 4 = 0 := by
  have := w.isLt
  rw [decodeToken, ite_ok_iff, extractLsb'_eq_iff, extractLsb'_eq_iff, BitVec.toNat_ofNat, BitVec.toNat_ofNat]
  omega

/-- R158, R163: a PHY control word has the write-mode flag set and the bits outside its fields clear. -/
theorem decodePhyWord_ok_iff (w : Word) : (∃ i, decodePhyWord w = .ok i) ↔ w.toNat / 2 ^ 16 = 0x80 := by
  have := w.isLt
  rw [decodePhyWord, ite_ok_iff, extractLsb'_eq_iff, BitVec.toNat_ofNat]
  omega

/-- R159, R163: a BAR setup word has the bits between its mask and its enable bit clear. -/
theorem decodeBarWord_ok_iff (w : Word) : (∃ i, decodeBarWord w = .ok i) ↔ w.toNat % 2 ^ 16 < 2 := by
  rw [decodeBarWord, ite_ok_iff, extractLsb'_eq_iff, BitVec.toNat_ofNat]
  omega

/-- R153: a result word has its reserved bits clear. -/
theorem decodeResult_ok_iff (w : BitVec 64) : (∃ i, decodeResult w = .ok i) ↔ w.toNat / 2 ^ 16 % 2 ^ 16 = 0 := by
  rw [decodeResult, ite_ok_iff, extractLsb'_eq_iff, BitVec.toNat_ofNat, Nat.zero_mod]

/-- Settles O4: the decoders of master words and step indices split at a bound, and those of the register words test fixed bits. -/
theorem reservedWordsAreRejected : Obligations.ReservedWordsAreRejected :=
  ⟨fun _ => (error_iff_of_cases decodeMaster_ok decodeMaster_reserved).trans Nat.not_le,
    fun _ => ok_iff_of_cases decodeMaster_ok decodeMaster_reserved,
    fun _ => (error_iff_of_cases (Machine.decodeStep_ok _) decodeStep_reserved).trans Nat.not_le,
    fun _ => ok_iff_of_cases (Machine.decodeStep_ok _) decodeStep_reserved,
    decodeToken_ok_iff, decodePhyWord_ok_iff, decodeBarWord_ok_iff, decodeResult_ok_iff⟩

end Sys2Proof
end

section
/-! PROOF. The operand latches hold the fields of a command and nothing reads them back (R34): an operation that starts from other latches ends
in the same state but for them (IgnoresLatches); and the statement O34, which reads it off. -/

namespace Sys2Proof.Machine

/-- R34: an operation that neither reads nor writes the operand latches: it commutes with a change of them. -/
def IgnoresLatches (f : State → State) : Prop :=
  ∀ (s : State) (l : Latches), f { s with lat := l } = { f s with lat := l }

namespace IgnoresLatches

theorem comp {f g : State → State} (hg : IgnoresLatches g) (hf : IgnoresLatches f) : IgnoresLatches fun s => g (f s) :=
  fun s l => (congrArg g (hf s l)).trans (hg (f s) l)

/-- Two such operations and a choice between them that does not look at the latches either. -/
theorem ite {c : State → Prop} [∀ s, Decidable (c s)] {f g : State → State} (hc : ∀ s l, c { s with lat := l } ↔ c s)
    (hf : IgnoresLatches f) (hg : IgnoresLatches g) : IgnoresLatches fun s => if c s then f s else g s := by
  intro s l
  by_cases h : c s
  · simp only [if_pos h, if_pos ((hc s l).mpr h), hf s l]
  · simp only [if_neg h, if_neg (mt (hc s l).mp h), hg s l]

theorem complete (status aux : Byte) (rdata : Word) : IgnoresLatches (·.complete status aux rdata) := fun _ _ => rfl

theorem refuse (c : Condition) (status : Byte) : IgnoresLatches (·.refuse c status) := fun _ _ => rfl

theorem cfgRead (w : Width) (bus devfn : Byte) (off : BitVec 12) : IgnoresLatches (·.cfgRead w bus devfn off) :=
  fun _ _ => by cases w <;> rfl

theorem setIrq (irq : Byte) : IgnoresLatches (·.setIrq irq) := fun _ _ => rfl

theorem housekeep (bus devfn irq : Byte) : IgnoresLatches (·.housekeep bus devfn irq) := fun _ _ => rfl

theorem openInbound : IgnoresLatches (·.openInbound) := fun _ _ => rfl

theorem zeroBase : IgnoresLatches (·.zeroBase) := fun _ _ => rfl

theorem setFixup (b : Bool) : IgnoresLatches ({ · with fixup := b }) := fun _ _ => rfl

theorem logUnexpected (bus : Byte) (slot : BitVec 5) : IgnoresLatches (·.logUnexpected bus slot) := fun _ _ => rfl

theorem mapirqFinish (bus : Byte) (slot : BitVec 5) (irq : Byte) : IgnoresLatches (·.mapirqFinish bus slot irq) :=
  (complete _ _ _).comp (.ite (fun _ _ => Iff.rfl) ((housekeep _ _ _).comp (setIrq irq)) (setIrq irq))

/-- R292: the rest of a MAPIRQ(0,0). -/
theorem mapirqResume : IgnoresLatches (·.mapirqResume) :=
  (setFixup false).comp ((mapirqFinish 0 0 0).comp zeroBase)

theorem mapirqRun (bus : Byte) (slot : BitVec 5) : IgnoresLatches (·.mapirqRun bus slot) :=
  .ite (fun _ _ => Iff.rfl) ((setFixup true).comp openInbound)
    (.ite (fun _ _ => Iff.rfl) (fun s l => mapirqFinish bus slot s.cfg.irqPcie0 s l) ((mapirqFinish bus slot 0).comp (logUnexpected bus slot)))

/-- R340: MAPIRQ after acceptance. -/
theorem mapirqBody (bus : Byte) (slot : BitVec 5) : IgnoresLatches (·.mapirqBody bus slot) :=
  .ite (fun _ _ => Iff.rfl) (refuse _ _) (mapirqRun bus slot)

/-- R240: ATTACH after acceptance. -/
theorem attachBody : IgnoresLatches (·.attachBody) :=
  .ite (fun _ _ => Iff.rfl) (refuse _ _) (.ite (fun _ _ => Iff.rfl) (fun _ _ => rfl) (fun _ _ => rfl))

/-- R312 to R314: CFGRD after acceptance. -/
theorem cfgrdBody (w : Width) (bus devfn : Byte) (off : BitVec 12) : IgnoresLatches (·.cfgrdBody w bus devfn off) := by
  have answer : IgnoresLatches fun s => s.complete statusOk 0 (laneExtract s.work.dw off w) := fun _ _ => rfl
  intro s l
  have same : ({ s with lat := l } : State).cfgRefusal w off = s.cfgRefusal w off := rfl
  simp only [State.cfgrdBody, same]
  split
  · rfl
  · exact answer.comp (cfgRead w bus devfn off) s l

/-- R151: a command is its op and what its body is given: the rest of its fields reach the latches alone. -/
theorem onPort {body : State → State} (h : IgnoresLatches body) (s : State) (op : BitVec 4) (wdata wdata' : Word)
    (bus bus' devfn devfn' : Byte) (off off' : BitVec 12) :
    s.onPort (fun s => body (s.accept op wdata' bus' devfn' off')) =
      { s.onPort (fun s => body (s.accept op wdata bus devfn off)) with
        lat := (s.onPort fun s => body (s.accept op wdata' bus' devfn' off')).lat } := by
  have other : body (s.accept op wdata' bus' devfn' off') =
      { body (s.accept op wdata bus devfn off) with lat := ⟨op, bus', devfn', off', wdata'⟩ } := h (s.accept op wdata bus devfn off) _
  unfold State.onPort
  split
  · rfl
  · simp only [other]

end IgnoresLatches

/-- Settles O34: none of the bodies reads a latch, and neither does the rest of MAPIRQ(0,0). -/
theorem ignoredFieldsHaveNoEffect : Obligations.IgnoredFieldsHaveNoEffect := by
  refine ⟨fun s _ _ bus devfn _ _ _ hslot => ⟨_, _, rfl, rfl, ?_⟩,
    fun s _ _ _ _ _ _ _ _ => ⟨_, _, rfl, rfl, IgnoresLatches.attachBody.onPort s ..⟩,
    fun s w _ _ bus devfn off => ?_, fun s l hf hi => ?_⟩
  · rw [← hslot]
    exact (IgnoresLatches.mapirqBody bus (slotOf devfn)).onPort s ..
  · cases w <;> exact ⟨_, _, rfl, rfl, (IgnoresLatches.cfgrdBody _ bus devfn off).onPort s ..⟩
  · exact ⟨_, step_resume_nil hi hf,
      (step_resume_nil (s := { s with lat := l }) hi hf).trans (congrArg _ (IgnoresLatches.mapirqResume s l))⟩

end Sys2Proof.Machine
end

section
/-! PROOF. What the arrival of a wire word leaves, and F-CMD as the command itself: the statements O59 and O60. -/

namespace Sys2Proof.Machine

/-- R156, R311: with the enable bit at bit 31 a token is the word of its fields. -/
theorem token_eq_append {c : Cfg} (h : c.tokenEn = 0x80000000) (ext : BitVec 4) (bus : Byte) (slot : BitVec 5) (func : BitVec 3)
    (reg : BitVec 6) :
    token c bus (slot ++ func) (ext ++ reg ++ 0#2) = 0x8#4 ++ ext ++ bus ++ slot ++ func ++ reg ++ 0#2 := by
  apply BitVec.eq_of_getLsbD_eq
  intro i hi
  rw [token_getLsbD _ _ _ _ _ hi, h]
  simp only [BitVec.getLsbD_append]
  interval_cases i <;> simp

/-- R158: in the default layout a PHY control word is the word of its fields. -/
theorem phyControl_eq_append {c : Cfg} (hm : c.phyWriteMode = 0x00800000) (ha : c.phyAddrShift = 8) (hd : c.phyDataShift = 0)
    (addr data : Byte) : phyControl c addr data = 0x0080#16 ++ addr ++ data := by
  apply BitVec.eq_of_getLsbD_eq
  intro i hi
  rw [phyControl, hm, ha, hd]
  simp only [BitVec.getLsbD_append]
  interval_cases i <;> simp

/-- R159: with the enable bit at bit 0 a BAR setup word is the word of its fields. -/
theorem barWordOf_eq_append {c : Cfg} (h : c.bar0En = 1) (mask : Half) (en : BitVec 1) :
    barWordOf c mask en = mask ++ 0#15 ++ en := by
  rw [barWordOf, h]
  grind

/-- R159: the value of a BAR setup word. -/
theorem barWordOf_eq (c : Cfg) (mask : Half) (en : BitVec 1) :
    barWordOf c mask en = BitVec.ofNat 32 (mask.toNat * 2 ^ 16) ||| (if en = 1 then c.bar0En else 0) := by
  rw [barWordOf]
  congr 1
  apply BitVec.eq_of_toNat_eq
  rw [BitVec.toNat_append, Nat.shiftLeft_eq, BitVec.toNat_zero, Nat.or_zero, BitVec.toNat_ofNat,
    Nat.mod_eq_of_lt (by omega)]

/-- Settles O59: each arrival is its definition, and the register word of the default layout is the encoder's. -/
theorem wireWordsArrive : Obligations.WireWordsArrive := by
  intro s
  refine ⟨fun ext bus slot func reg => ⟨rfl, fun h => ?_⟩, fun addr data => ⟨rfl, fun hm ha hd => ?_⟩,
    fun mask en => ⟨_, rfl, barWordOf_eq _ _ _, fun h => ?_⟩,
    fun slot func => ⟨slot ++ func, rfl, extract_append_top 3 _ _ rfl, extract_append_low _ _, rfl⟩, fun _ _ _ => rfl⟩
  · rw [token_eq_append h]; rfl
  · rw [phyControl_eq_append hm ha hd]; rfl
  · rw [barWordOf_eq_append h]; rfl

/-- Settles O60: F-CMD accepts its fields as they are, and so does the decoded command. -/
theorem commandFormatIsTheCommand : Obligations.CommandFormatIsTheCommand := by
  intro s wdata bus devfn off op
  have command := exec_decodeCommand (encodeCommand op wdata bus devfn off) s
  simp only [encodeCommand_fields] at command
  exact ⟨_, _, rfl, rfl, command⟩

end Sys2Proof.Machine
end

section
/-! PROOF. What an operation appends to the event history, in one relation between the state before and after (State.IssuesInRange), for every
operation but a bare master-port request; and the statement O15. -/

namespace Sys2Proof.Machine

/-- R202: the way from `s` to `t` only appends to the history, and what it appends is in the operand ranges of the Cfg, which it keeps. -/
structure State.IssuesInRange (s t : State) : Prop where
  cfg : t.cfg = s.cfg
  appended : ∃ es, t.hist = s.hist ++ es ∧ ∀ e ∈ es, e.inRange s.cfg = true

/-- A bare master-port request, whose operands its caller chooses: an MREQ row, or BR_MOD32. -/
def isRequest (i : Instr) : Bool :=
  match i with
  | .brRd32 _ | .brWr32 _ _ | .brMod32 _ _ _ | .ssRd32 _ | .ssWr32 _ _ | .scRd32 _ | .scMod32 _ _ _ => true
  | .rstAssert | .rstDeassert | .delay _ | .log _ _ | .register => true
  | _ => false

namespace State.IssuesInRange

theorem trans {s t u : State} (h : s.IssuesInRange t) (k : t.IssuesInRange u) : s.IssuesInRange u := by
  obtain ⟨es, ht, hes⟩ := h.appended
  obtain ⟨fs, hu, hfs⟩ := k.appended
  refine ⟨k.cfg.trans h.cfg, es ++ fs, by rw [hu, ht, List.append_assoc], fun e he => ?_⟩
  rcases List.mem_append.mp he with he | he
  · exact hes e he
  · exact h.cfg ▸ hfs e he

/-- An operation that issues nothing. -/
theorem quiet {s t : State} (hh : t.hist = s.hist := by simp) (hc : t.cfg = s.cfg := by simp) : s.IssuesInRange t :=
  ⟨hc, [], by simp [hh], by simp⟩

/-- An operation that issues one request. -/
theorem emit {s t : State} {e : Event} (hh : t.hist = s.hist ++ [e]) (he : e.inRange s.cfg = true)
    (hc : t.cfg = s.cfg := by simp) : s.IssuesInRange t :=
  ⟨hc, [e], hh, by simpa using he⟩

theorem refl (s : State) : s.IssuesInRange s := quiet rfl

/-- A bridge write of a listed offset. -/
theorem brWr32 {s t : State} {off : Half} {v : Word} (h : s.IssuesInRange t)
    (ho : s.cfg.brOffsets.contains off = true := by simp [Cfg.brOffsets]) : s.IssuesInRange (t.brWr32 off v) :=
  h.trans (emit rfl (h.cfg ▸ ho))

/-- A subsystem write of a listed offset. -/
theorem ssWr32 {s t : State} {off : Half} {v : Word} (h : s.IssuesInRange t)
    (ho : ssWritable s.cfg off = true := by simp [ssWritable]) : s.IssuesInRange (t.ssWr32 off v) :=
  h.trans (emit rfl (h.cfg ▸ ho))

theorem complete {s t : State} {status aux : Byte} {rdata : Word} (h : s.IssuesInRange t) :
    s.IssuesInRange (t.complete status aux rdata) :=
  h.trans (quiet rfl)

theorem goto {s t : State} {n : BitVec 6} (h : s.IssuesInRange t) : s.IssuesInRange (t.goto n) := h.trans (quiet rfl)

/-- A read of PHYCFG, as every poll begins (R221). -/
theorem poll (s : State) : s.IssuesInRange s.poll := emit rfl (by simp [Event.inRange])

theorem pollLoop (n : Nat) (s : State) : s.IssuesInRange (pollLoop n s) := by
  induction n generalizing s with
  | zero =>
    unfold Machine.pollLoop
    split <;> exact (poll s).trans (quiet rfl)
  | succ n ih =>
    unfold Machine.pollLoop
    split
    · have delayed : s.poll.IssuesInRange (s.poll.delay s.cfg.tBusy) := emit rfl (by simp [Event.inRange])
      exact ((poll s).trans delayed).trans (ih _)
    · exact (poll s).trans (quiet rfl)

theorem waitPhyIdle (s : State) : s.IssuesInRange s.waitPhyIdle :=
  .trans (t := { s with work := { s.work with polls := 0 } }) quiet (pollLoop _ _)

theorem phyWrite (s : State) (a d : Byte) : s.IssuesInRange (s.phyWrite a d) := by
  have written : s.IssuesInRange (s.ssWr32 s.cfg.offPhycfg (phyControl s.cfg a d)) := (refl s).ssWr32
  exact written.trans (emit rfl (by simp [Event.inRange]))

theorem calTimeout (s : State) (a : Byte) (phase : Nat) : s.IssuesInRange (s.calTimeout a phase) :=
  emit rfl (by simp [Event.inRange])

theorem calFinish (s : State) (a d : Byte) : s.IssuesInRange (s.calFinish a d) := by
  have waited : s.IssuesInRange (s.phyWrite a d).waitPhyIdle := (phyWrite s a d).trans (waitPhyIdle _)
  unfold State.calFinish
  dsimp only
  split
  · exact waited.trans (calTimeout _ a 1)
  · exact waited.trans (quiet rfl)

theorem calibrate (s : State) (a d : Byte) : s.IssuesInRange (s.calibrate a d) := by
  have waited : s.IssuesInRange { s with work := { s.work with cala := a, cald := d } }.waitPhyIdle :=
    .trans (t := { s with work := { s.work with cala := a, cald := d } }) quiet (waitPhyIdle _)
  unfold State.calibrate
  dsimp only
  split
  · exact waited.trans (calTimeout _ a 0)
  · exact waited.trans (calFinish _ a d)

theorem calSeq (s : State) : s.IssuesInRange s.calSeq :=
  ((calibrate s _ _).trans (calibrate _ _ _)).trans (calibrate _ _ _)

/-- R286: the read and the write of PCIMSK. -/
theorem maskLegacy (s : State) : s.IssuesInRange (s.brMod32 s.cfg.offPcimsk 0 s.cfg.mPcimskLegacy) := by
  have read : s.IssuesInRange (s.brRd32 s.cfg.offPcimsk) := emit rfl (by simp [Event.inRange])
  exact read.brWr32

theorem wincfg (s : State) : s.IssuesInRange s.wincfg := by
  have windows : s.IssuesInRange ((s.brWr32 s.cfg.offMembase s.cfg.membaseSentinel).brWr32 s.cfg.offIobase s.cfg.ioWinBase) :=
    (refl s).brWr32.brWr32
  exact (windows.ssWr32.ssWr32.ssWr32.ssWr32.ssWr32.trans (maskLegacy _)).trans (emit rfl rfl)

theorem cfgSelect (s : State) (bus devfn : Byte) (off : BitVec 12) : s.IssuesInRange (s.cfgSelect bus devfn off) :=
  .trans (t := { s with work := { s.work with tok := token s.cfg bus devfn off } }) (quiet rfl) (refl _).brWr32

theorem cfgFetch (s : State) (bus devfn : Byte) (off : BitVec 12) : s.IssuesInRange (s.cfgFetch bus devfn off) :=
  (cfgSelect s bus devfn off).trans (emit rfl (by simp [Event.inRange]))

theorem cfgRead (s : State) (w : Width) (bus devfn : Byte) (off : BitVec 12) : s.IssuesInRange (s.cfgRead w bus devfn off) := by
  cases w with
  | dword => exact cfgFetch s bus devfn off
  | byte | half => exact (cfgFetch s bus devfn off).trans (quiet rfl)

theorem cfgWrite (s : State) (w : Width) (bus devfn : Byte) (off : BitVec 12) (v : Word) :
    s.IssuesInRange (s.cfgWrite w bus devfn off v) := by
  have merged : s.IssuesInRange ((s.cfgFetch bus devfn off).cfgMerge w off v) := (cfgFetch s bus devfn off).trans (quiet rfl)
  cases w with
  | dword => exact (cfgSelect s bus devfn off).brWr32
  | byte | half => exact merged.brWr32

theorem readCommand (s : State) (bus devfn : Byte) : s.IssuesInRange (s.readCommand bus devfn) :=
  (cfgRead s .half bus devfn s.cfg.pciCommand).trans (quiet rfl)

theorem housekeep (s : State) (bus devfn irq : Byte) : s.IssuesInRange (s.housekeep bus devfn irq) :=
  ((((cfgWrite s .byte bus devfn _ _).trans (cfgWrite _ .byte bus devfn _ _)).trans (readCommand _ bus devfn)).trans
    (cfgWrite _ .half bus devfn _ _)).trans (cfgWrite _ .byte bus devfn _ _)

theorem openInbound (s : State) : s.IssuesInRange s.openInbound := (refl s).ssWr32

theorem zeroBase (s : State) : s.IssuesInRange s.zeroBase := by
  have written : s.IssuesInRange (s.ssWr32 s.cfg.offImbasebar0 0) := (refl s).ssWr32
  exact written.trans (emit rfl (by simp [Event.inRange]))

theorem rootFixup (s : State) : s.IssuesInRange s.rootFixup := (openInbound s).trans (zeroBase _)

theorem mapirqFinish (s : State) (bus : Byte) (slot : BitVec 5) (irq : Byte) :
    s.IssuesInRange (s.mapirqFinish bus slot irq) := by
  have resolved : s.IssuesInRange (s.setIrq irq) := quiet
  unfold State.mapirqFinish
  split
  · exact (resolved.trans (housekeep _ bus _ irq)).complete
  · exact resolved.complete

theorem mapirqResume (s : State) : s.IssuesInRange s.mapirqResume :=
  ((zeroBase s).trans (mapirqFinish _ 0 0 0)).trans (quiet rfl)

theorem mapirqRun (s : State) (bus : Byte) (slot : BitVec 5) : s.IssuesInRange (s.mapirqRun bus slot) := by
  unfold State.mapirqRun
  split
  · exact (openInbound s).trans (quiet rfl)
  · split
    · exact mapirqFinish s bus slot _
    · have logged : s.IssuesInRange (s.logUnexpected bus slot) := emit rfl (by simp [Event.inRange])
      exact logged.trans (mapirqFinish _ bus slot 0)

theorem mapirqBody (s : State) (bus : Byte) (slot : BitVec 5) : s.IssuesInRange (s.mapirqBody bus slot) := by
  unfold State.mapirqBody
  split
  · exact quiet
  · exact mapirqRun s bus slot

theorem cfgrdBody (s : State) (w : Width) (bus devfn : Byte) (off : BitVec 12) :
    s.IssuesInRange (s.cfgrdBody w bus devfn off) := by
  unfold State.cfgrdBody
  split
  · exact quiet
  · exact (cfgRead s w bus devfn off).complete

theorem cfgwrBody (s : State) (w : Width) (bus devfn : Byte) (off : BitVec 12) (v : Word) :
    s.IssuesInRange (s.cfgwrBody w bus devfn off v) := by
  unfold State.cfgwrBody
  split
  · exact quiet
  · exact (cfgWrite s w bus devfn off v).complete

theorem attachBody (s : State) : s.IssuesInRange s.attachBody := quiet

theorem illegalBody (s : State) : s.IssuesInRange s.illegalBody := quiet

theorem commandBody (s : State) (op : BitVec 4) (wdata : Word) (bus devfn : Byte) (off : BitVec 12) :
    s.IssuesInRange (s.commandBody op wdata bus devfn off) :=
  s.commandBody_forms op wdata bus devfn off (attachBody s) (mapirqBody s _ _) (fun w => cfgrdBody s w _ _ _)
    (fun w => cfgwrBody s w _ _ _ _) (illegalBody s)

theorem accept {s t : State} {op : BitVec 4} {wdata : Word} {bus devfn : Byte} {off : BitVec 12}
    (h : (s.accept op wdata bus devfn off).IssuesInRange t) : s.IssuesInRange t :=
  .trans (t := s.accept op wdata bus devfn off) (quiet rfl) h

/-- A command on its port: held while the port is busy, run where it is free (R415). -/
theorem onPort {s : State} {body : State → State} (h : s.IssuesInRange (body s)) : s.IssuesInRange (s.onPort body) := by
  unfold State.onPort
  split
  · exact refl s
  · exact h

theorem of_next {s t u : State} (h : (.next u : Host.Outcome State Fault Refusal) = .next t) (k : s.IssuesInRange u) :
    s.IssuesInRange t :=
  Host.Outcome.next.inj h ▸ k

end State.IssuesInRange

/-- Every operation but a bare request issues only what R202 lists. -/
theorem exec_issuesInRange {i : Instr} {s t : State} (hi : isRequest i = false) (h : exec i s = .next t) : s.IssuesInRange t := by
  cases i with
  | brRd32 | brWr32 | brMod32 | ssRd32 | ssWr32 | scRd32 | scMod32 | rstAssert | rstDeassert | delay | log | register => cases hi
  | mapirq => exact .of_next h (.onPort (.accept (.mapirqBody _ _ _)))
  | cfgrdB | cfgrdH | cfgrdW => exact .of_next h (.onPort (.accept (.cfgrdBody _ _ _ _ _)))
  | cfgwrB | cfgwrH | cfgwrW => exact .of_next h (.onPort (.accept (.cfgwrBody _ _ _ _ _ _)))
  | attach => exact .of_next h (.onPort (.accept (.attachBody _)))
  | illegal0 | illegal3 | illegal7 | illegalB | illegalCF => exact .of_next h (.onPort (.accept (.illegalBody _)))
  | fCmd => exact .of_next h (.onPort (.accept (.commandBody _ _ _ _ _ _)))
  | seqIdle | inbXlate | outbMemXlate | outbIoXlate | xreqReserved => exact .of_next h .quiet
  | seq01 | seq02 | seq04 | seq05 | seq10 | seq14 | seq15 | seq18 | seq19 | seq20 | seq23 | seq27 | seq28 =>
    exact .of_next h (.emit rfl (by simp [Event.inRange, scWritable]))
  | seq03 | seq09 | seq13 | seq17 | seq22 | seq26 | seq38 => exact .of_next h (.emit rfl rfl)
  | seq11 | seq16 | seq21 | seq24 | seq29 => exact .of_next h (.emit rfl (by simp [Event.inRange]))
  | seq06 | seq07 | seq08 => exact .of_next h (.goto (.calibrate s _ _))
  | seq12 | seq25 =>
    have sampled := Host.Outcome.next.inj h
    split at sampled <;> exact sampled ▸ .emit rfl (by simp [Event.inRange])
  | seq30 | seq31 => exact .of_next h (.emit rfl (by simp [Event.inRange, Cfg.brOffsets]))
  | seq32 | seq33 | seq34 | seq35 | seq36 => exact .of_next h (.emit rfl (by simp [Event.inRange, ssWritable]))
  | seq37 => exact .of_next h (.goto (.maskLegacy s))
  | fToken | fPhyw | fBar | fDevfn | fRes | token | laneExtract | laneMerge => exact .of_next h .quiet
  | waitPhyIdle => exact .of_next h (.waitPhyIdle s)
  | calibrate => exact .of_next h (.calibrate s _ _)
  | calSeq => exact .of_next h (.calSeq s)
  | wincfg => exact .of_next h (.wincfg s)
  | rootFixup => exact .of_next h (.rootFixup s)
  | housekeep => exact .of_next h (.housekeep s _ _ _)

/-- R162, R243: no row of the step table is a bare request. -/
theorem decodeStep_isRequest {n : BitVec 6} {i : Instr} (hd : decodeStep n = .ok i) : isRequest i = false := by
  have table : ∀ n : BitVec 6, ∀ i ∈ (decodeStep n).toOption, isRequest i = false := by decide
  exact table n i (by rw [hd]; rfl)

/-- R152: no command word is a bare request. -/
theorem decodeCommand_isRequest (w : BitVec 64) : isRequest (decodeCommand w) = false := by
  unfold decodeCommand
  dsimp only
  split <;> rfl

/-- Settles O15: neither the outside nor the step table can name a bare request, and everything else stays in range. -/
theorem requestsStayInRange : Obligations.RequestsStayInRange := by
  intro s t _ hout hr h
  have taken : ∀ rest, s.IssuesInRange { s with inputs := rest } := fun _ => .quiet
  suffices issued : s.IssuesInRange t from issued.appended
  rcases step_cases s hout with ⟨rest, hi, -⟩ | ⟨w, rest, hit, addr, -, hs⟩ | ⟨w, rest, -, -, hs⟩ | ⟨rest, -, -, hs⟩
  · simp [State.notResetting, hi] at hr
  · exact .of_next (hs.symm.trans h) .quiet
  · exact (taken rest).trans (exec_issuesInRange (decodeCommand_isRequest w) (hs.symm.trans h))
  · rw [hs] at h
    split at h
    · exact .of_next h ((taken rest).trans (.mapirqResume _))
    · split at h
      · next i hd => exact (taken rest).trans (exec_issuesInRange (decodeStep_isRequest hd) h)
      · cases h

end Sys2Proof.Machine
end

section
/-! PROOF. The master-port requests one by one (R190 to R201): the reads that no rule fixes, the refusals of R202, a write of CFGDATA and of PHYCFG;
and the statements O49 to O55. The named registers' own laws stand in Laws/Registers.lean. -/

namespace Sys2Proof.Machine

/-- R20, R39: a bridge read of an offset that names no register is a draw (log 15). -/
theorem State.brRd32_unlisted {s : State} {off : Half} (h : off ∉ s.cfg.brOffsets) :
    s.brRd32 off = { s.afterDraws 1 with ans := s.drawAt 0, hist := s.hist ++ [.brRd off (s.drawAt 0)] } := by
  have drawn : s.brFixed off = none := by simp_all [State.brFixed, Cfg.brOffsets]
  rw [State.brRd32, drawn, State.answered_none]

/-- R20, R39: a subsystem read of an offset that names no register is a draw (log 15). -/
theorem State.ssRd32_unlisted {s : State} {off : Half} (h : off ∉ s.cfg.ssOffsets) :
    s.ssRd32 off = { s.afterDraws 1 with ans := s.drawAt 0, hist := s.hist ++ [.ssRd off (s.drawAt 0)] } := by
  have drawn : s.ssFixed off = none := by simp_all [State.ssFixed, Cfg.ssOffsets]
  rw [State.ssRd32, drawn, State.answered_none]

/-- R20, R39: a system-control read of an offset that names no register is a draw (log 15). -/
theorem State.scRd32_unlisted {s : State} {off : Half} (h : off ∉ s.cfg.scOffsets) :
    s.scRd32 off = { s.afterDraws 1 with ans := s.drawAt 0, hist := s.hist ++ [.scRd off (s.drawAt 0)] } := by
  have drawn : s.scFixed off = none := by simp_all [State.scFixed, Cfg.scOffsets]
  rw [State.scRd32, drawn, State.answered_none]

/-- A system-control read whose answer a rule fixes. -/
theorem State.scRd32_of_fixed {s : State} {off : Half} {v : Word} (hv : s.scFixed off = some v) :
    s.scRd32 off = { s with ans := v, hist := s.hist ++ [.scRd off v] } := by
  simp [State.scRd32, State.answered, hv]

/-- Settles O49: the four registers, a token's location, and a draw elsewhere. -/
theorem bridgeReads : Obligations.BridgeReads := fun _ h =>
  ⟨congrArg _ (State.brRd32_pcimsk h rfl rfl), congrArg _ (State.brRd32_cfgaddr h rfl rfl),
    congrArg _ (State.brRd32_membase h rfl rfl), congrArg _ (State.brRd32_iobase h rfl rfl),
    fun _ _ _ ht => congrArg _ (State.brRd32_cfgdata h rfl ht), fun _ ho => congrArg _ (State.brRd32_unlisted ho)⟩

/-- R202: a listed bridge offset other than CFGDATA is written in every state. -/
theorem State.brWriteRefusal_register {s : State} {off : Half} (h : s.cfg.Wf)
    (ho : off = s.cfg.offPcimsk ∨ off = s.cfg.offCfgaddr ∨ off = s.cfg.offMembase ∨ off = s.cfg.offIobase) :
    s.brWriteRefusal off = none := by
  have apart := h.brDistinct
  rcases ho with rfl | rfl | rfl | rfl <;> simp [State.brWriteRefusal, brWritable, Cfg.brOffsets, apart]

/-- R42: CFGDATA is written where CFGADDR holds a token. -/
theorem State.brWriteRefusal_token {s : State} (h : s.cfg.Wf) {bus devfn : Byte} {off : BitVec 12}
    (ht : s.br.cfgaddr = token s.cfg bus devfn off) : s.brWriteRefusal s.cfg.offCfgdata = none := by
  simp [State.brWriteRefusal, brWritable, Cfg.brOffsets, ht, cfgSelected_token h]

/-- R202: an offset that names no bridge register (log 15). -/
theorem State.brWriteRefusal_unlisted {s : State} {off : Half} (ho : off ∉ s.cfg.brOffsets) :
    s.brWriteRefusal off = some (.unlistedRegister off) := by
  simp [State.brWriteRefusal, brWritable, ho]

/-- R42: CFGDATA with no well-formed token in CFGADDR (log 16). -/
theorem State.brWriteRefusal_unselected {s : State}
    (hu : s.br.cfgaddr &&& s.cfg.tokenEn = 0 ∨ s.br.cfgaddr &&& ~~~(0x0FFFFFFC ||| s.cfg.tokenEn) ≠ 0) :
    s.brWriteRefusal s.cfg.offCfgdata = some .cfgdataUnselected := by
  have unselected : cfgSelected s.cfg s.br.cfgaddr = false := by
    rcases hu with hu | hu <;> simp_all [cfgSelected]
  simp [State.brWriteRefusal, brWritable, Cfg.brOffsets, unselected]

theorem execBrWr32_of_none {s : State} {off : Half} (hr : s.brWriteRefusal off = none) (v : Word) :
    exec (.brWr32 off v) s = .next (s.brWr32 off v) := by
  simp only [exec, execBrWr32, hr]

theorem execBrWr32_of_some {s : State} {off : Half} {r : Refusal} (hr : s.brWriteRefusal off = some r) (v : Word) :
    exec (.brWr32 off v) s = .refused r := by
  simp only [exec, execBrWr32, hr]

theorem execBrMod32_of_none {s : State} {off : Half} (hr : s.brWriteRefusal off = none) (clr set : Word) :
    exec (.brMod32 off clr set) s = .next (s.brMod32 off clr set) := by
  simp only [exec, execBrMod32, hr]

theorem execBrMod32_of_some {s : State} {off : Half} {r : Refusal} (hr : s.brWriteRefusal off = some r) (clr set : Word) :
    exec (.brMod32 off clr set) s = .refused r := by
  simp only [exec, execBrMod32, hr]

/-- R42, R67: the bytes of configuration space after a write of CFGDATA with a token in CFGADDR. -/
theorem State.brWr32_cfgdata_cfgByte {s : State} (h : s.cfg.Wf) {bus devfn : Byte} {off : BitVec 12}
    (ht : s.br.cfgaddr = token s.cfg bus devfn off) (hm : s.memWf = true) (v : Word) (a : Nat) :
    (s.brWr32 s.cfg.offCfgdata v).cfgByte a =
      if s.isPlain (locOf bus devfn off) ∧ a / 4 = (locOf bus devfn off).toNat then laneByte v (a % 4) else s.cfgByte a := by
  have stored : (s.brWr32 s.cfg.offCfgdata v).mem = _ := congrArg State.mem (State.brWr32_cfgdata h rfl ht v)
  rw [State.cfgByte, stored]
  by_cases hp : s.isPlain (locOf bus devfn off)
  · rw [if_pos hp]
    exact (Memory.read_writeDword_lane _ _ _ _ _ hm).trans (if_congr (and_iff_right hp).symm rfl rfl)
  · rw [if_neg hp, if_neg fun covered => hp covered.1]
    rfl

/-- Settles O50: each listed write goes through, and the two refusals are named. -/
theorem bridgeWrites : Obligations.BridgeWrites := by
  intro s v h
  have through : ∀ {off : Half} {t : State},
      off = s.cfg.offPcimsk ∨ off = s.cfg.offCfgaddr ∨ off = s.cfg.offMembase ∨ off = s.cfg.offIobase →
      s.brWr32 off v = t → exec (.brWr32 off v) s = .next t :=
    fun ho ht => ht ▸ execBrWr32_of_none (State.brWriteRefusal_register h ho) v
  refine ⟨through (by simp) (State.brWr32_pcimsk h rfl rfl v), through (by simp) (State.brWr32_cfgaddr h rfl rfl v),
    through (by simp) (State.brWr32_membase h rfl rfl v), through (by simp) (State.brWr32_iobase h rfl rfl v),
    fun bus devfn off ht hm => ⟨_, execBrWr32_of_none (State.brWriteRefusal_token h ht) v, ?_, State.brWr32_cfgdata_cfgByte h ht hm v⟩,
    fun o ho => execBrWr32_of_some (State.brWriteRefusal_unlisted ho) v,
    fun hu => execBrWr32_of_some (State.brWriteRefusal_unselected hu) v⟩
  rw [State.brWr32_cfgdata h rfl ht]

/-- Settles O51: the read and the write, which meet the same refusals. -/
theorem bridgeModify : Obligations.BridgeModify := by
  intro s clr set h
  have through : ∀ {off : Half} {t : State},
      off = s.cfg.offPcimsk ∨ off = s.cfg.offCfgaddr ∨ off = s.cfg.offMembase ∨ off = s.cfg.offIobase →
      s.brMod32 off clr set = t → exec (.brMod32 off clr set) s = .next t :=
    fun ho ht => ht ▸ execBrMod32_of_none (State.brWriteRefusal_register h ho) clr set
  refine ⟨through (by simp) (State.brMod32_pcimsk h rfl rfl clr set), through (by simp) (State.brMod32_membase h rfl rfl clr set),
    through (by simp) (State.brMod32_iobase h rfl rfl clr set), through (by simp) (State.brMod32_cfgaddr h rfl rfl clr set),
    fun bus devfn off ht => ⟨s.brRd32 s.cfg.offCfgdata, rfl, ?_⟩,
    fun o ho => execBrMod32_of_some (State.brWriteRefusal_unlisted ho) clr set⟩
  have open_s := State.brWriteRefusal_token h ht
  have open_t : (s.brRd32 s.cfg.offCfgdata).brWriteRefusal s.cfg.offCfgdata = none := open_s
  rw [execBrMod32_of_none open_s, execBrWr32_of_none open_t]
  rfl

/-- Settles O52: the stored registers of both spaces, and a draw elsewhere. -/
theorem subsystemAndSystemControlReads : Obligations.SubsystemAndSystemControlReads := by
  intro s h
  have stored : ∀ {off : Half} {v : Word}, s.scFixed off = some v →
      exec (.scRd32 off) s = .next { s with ans := v, hist := s.hist ++ [.scRd off v] } :=
    fun hv => congrArg _ (State.scRd32_of_fixed hv)
  refine ⟨congrArg _ (State.ssRd32_imbasebar0 h rfl rfl), congrArg _ (State.ssRd32_bar0setup h rfl rfl),
    congrArg _ (State.ssRd32_id h rfl rfl), congrArg _ (State.ssRd32_cls h rfl rfl), congrArg _ (State.ssRd32_subid h rfl rfl),
    fun o ho => congrArg Host.Outcome.next ?_, stored (State.scFixed_gpiomode h rfl rfl), stored (State.scFixed_syscfg1 h rfl rfl),
    stored (State.scFixed_clkcfg1 h rfl rfl), stored (State.scFixed_clkgen0 h rfl rfl), stored (State.scFixed_clkgen1 h rfl rfl),
    stored (State.scFixed_pplldrv h rfl rfl), fun o ho => congrArg Host.Outcome.next ?_⟩
  · rcases ho with rfl | rfl | ho
    · exact s.ssRd32_phycfg
    · exact s.ssRd32_status
    · exact State.ssRd32_unlisted ho
  · rcases ho with rfl | ho
    · exact s.scRd32_ppllcfg1
    · exact State.scRd32_unlisted ho

/-- R52, R194: a word for PHYCFG is for the PHY and changes no register. -/
theorem State.ssWr32_phycfg {s : State} (h : s.cfg.Wf) (v : Word) :
    s.ssWr32 s.cfg.offPhycfg v = { s with phyLog := s.phyLog ++ s.phyStarts v, hist := s.hist ++ [.ssWr s.cfg.offPhycfg v] } := by
  rw [State.ssWr32, SsRegs.write_phycfg h, if_pos rfl]

/-- R66: what a word for PHYCFG starts is not complete yet. -/
theorem State.phyStarts_done (s : State) (v : Word) : ∀ r ∈ s.phyStarts v, r.done = false := by
  unfold State.phyStarts
  split
  · simp [phyRequest]
  · rw [List.forall_mem_map]
    exact fun _ _ => rfl

theorem execSsWr32_of_writable {s : State} {off : Half} (hw : ssWritable s.cfg off = true) (v : Word) :
    exec (.ssWr32 off v) s = .next (s.ssWr32 off v) := by
  simp [exec, execSsWr32, hw]

/-- R202: STATUS and an offset that names no subsystem register are refused (log 15). -/
theorem execSsWr32_refused {s : State} {off : Half} (h : s.cfg.Wf) (ho : off = s.cfg.offStatus ∨ off ∉ s.cfg.ssOffsets) (v : Word) :
    exec (.ssWr32 off v) s = .refused (.unlistedRegister off) := by
  have shut : ssWritable s.cfg off = false := by
    have apart := h.ssDistinct
    rcases ho with rfl | ho
    · simp [ssWritable, apart]
    · simp_all [ssWritable, Cfg.ssOffsets]
  simp [exec, execSsWr32, shut]

/-- Settles O53: five registers, the PHY's word, and the refusals. -/
theorem subsystemWrites : Obligations.SubsystemWrites := by
  intro s v h
  have through : ∀ {off : Half} {v : Word} {t : State}, ssWritable s.cfg off = true → s.ssWr32 off v = t →
      exec (.ssWr32 off v) s = .next t :=
    fun hw ht => ht ▸ execSsWr32_of_writable hw _
  refine ⟨through (by simp [ssWritable]) (State.ssWr32_bar0setup h rfl rfl v),
    through (by simp [ssWritable]) (State.ssWr32_imbasebar0 h rfl rfl v), through (by simp [ssWritable]) (State.ssWr32_id h rfl rfl v),
    through (by simp [ssWritable]) (State.ssWr32_cls h rfl rfl v), through (by simp [ssWritable]) (State.ssWr32_subid h rfl rfl v),
    fun a d => through (by simp [ssWritable]) ?_, fun o ho => execSsWr32_refused h ho v,
    s.phyStarts v, s.phyStarts_length v, s.phyStarts_done v, through (by simp [ssWritable]) (State.ssWr32_phycfg h v)⟩
  rw [State.ssWr32_phycfg h, State.phyStarts_write s (phyIsWrite_phyControl s.cfg a d), phyRequest_phyControl h]

theorem execScMod32_of_writable {s : State} {off : Half} (hw : scWritable s.cfg off = true) (clr set : Word) :
    exec (.scMod32 off clr set) s = .next (s.scMod32 off clr set) := by
  simp [exec, execScMod32, hw]

/-- R202: PPLL_CFG1 and an offset that names no system-control register are refused (log 15). -/
theorem execScMod32_refused {s : State} {off : Half} (h : s.cfg.Wf) (ho : off = s.cfg.offPpllcfg1 ∨ off ∉ s.cfg.scOffsets)
    (clr set : Word) : exec (.scMod32 off clr set) s = .refused (.unlistedRegister off) := by
  have shut : scWritable s.cfg off = false := by
    have apart := h.scDistinct
    rcases ho with rfl | ho
    · simp [scWritable, apart]
    · simp_all [scWritable, Cfg.scOffsets]
  simp [exec, execScMod32, shut]

/-- Settles O54: six registers and the refusals. -/
theorem systemControlModifies : Obligations.SystemControlModifies := by
  intro s clr set h
  have through : ∀ {off : Half} {t : State}, scWritable s.cfg off = true → s.scMod32 off clr set = t →
      exec (.scMod32 off clr set) s = .next t :=
    fun hw ht => ht ▸ execScMod32_of_writable hw clr set
  exact ⟨through (by simp [scWritable]) (State.scMod32_gpiomode h rfl rfl clr set),
    through (by simp [scWritable]) (State.scMod32_syscfg1 h rfl rfl clr set),
    through (by simp [scWritable]) (State.scMod32_clkcfg1 h rfl rfl clr set),
    through (by simp [scWritable]) (State.scMod32_clkgen0 h rfl rfl clr set),
    through (by simp [scWritable]) (State.scMod32_clkgen1 h rfl rfl clr set),
    through (by simp [scWritable]) (State.scMod32_pplldrv h rfl rfl clr set), fun _ ho => execScMod32_refused h ho clr set⟩

/-- Settles O55: each operation is one state update, in every state and for every operand. -/
theorem lineDelayLogRegister : Obligations.LineDelayLogRegister := fun _ _ _ _ => ⟨rfl, rfl, rfl, rfl, rfl⟩

end Sys2Proof.Machine
end

section
/-! PROOF. The PHY Calibration Unit in closed form: the bounded wait for any answers (pollLoop_eq), CALIBRATE as two waits around one
write, and the statements O45, O46 and O48. -/

namespace Sys2Proof.Machine

/-- R20: once n answers are taken, the next ones are the later ones of the same sequence. -/
theorem State.drawAt_of_drop {s t : State} {n : Nat} (hd : t.draws = s.draws.drop n) (hc : t.drawCount = s.drawCount + n) (j : Nat) :
    t.drawAt j = s.drawAt (n + j) := by
  simp [State.drawAt, hd, hc, Nat.add_assoc]

theorem State.answersFrom_of_drop {s t : State} {n j : Nat} {vs : List Word} {v : Word} (hd : t.draws = s.draws.drop n)
    (hc : t.drawCount = s.drawCount + n) (h : t.answersFrom j vs v) : s.answersFrom (n + j) vs v := by
  simpa only [State.answersFrom, State.drawAt_of_drop hd hc, Nat.add_assoc] using h

theorem State.answersFrom_nil (s : State) (j : Nat) : s.answersFrom j [] (s.drawAt j) :=
  ⟨fun _ hk => absurd hk (Nat.not_lt_zero _), rfl⟩

theorem State.answersFrom_cons {s : State} {j : Nat} {vs : List Word} {v : Word} (h : s.answersFrom (j + 1) vs v) :
    s.answersFrom j (s.drawAt j :: vs) v := by
  obtain ⟨hvs, hv⟩ := h
  refine ⟨fun k hk => ?_, by rw [hv, List.length_cons, Nat.add_right_comm, Nat.add_assoc]⟩
  cases k with
  | zero => rfl
  | succ k =>
    have later := hvs k (Nat.lt_of_succ_lt_succ hk)
    rwa [Nat.add_right_comm, Nat.add_assoc] at later

/-- R221: a wait whose first answer is idle ends with it. -/
theorem waitAnswers_of_idle {s : State} {c : Cfg} {j : Nat} {vs : List Word} {v : Word} {idle : Bool} (hw : waitAnswers c vs v idle)
    (hv : s.answersFrom j vs v) (hidle : s.drawAt j &&& c.mPhyBusy = 0) : vs = [] ∧ v = s.drawAt j ∧ idle = true := by
  obtain ⟨-, busy, last⟩ := hw
  obtain ⟨hvs, rfl⟩ := hv
  cases vs with
  | nil => cases idle <;> simp_all
  | cons u us =>
    have first : u = s.drawAt j := by simpa using hvs 0 (Nat.succ_pos _)
    exact absurd hidle (first ▸ busy u List.mem_cons_self)

/-- R221: the state a wait leaves: the busy answers `vs` and then `v` taken, and the result. -/
def State.afterWait (s : State) (vs : List Word) (v : Word) (idle : Bool) : State :=
  { s.afterDraws (vs.length + 1) with
    work := { s.work with v := v, polls := s.work.polls + (vs.length + 1) }
    ans := v
    hist := s.hist ++ waitTrail s.cfg vs v
    ret := if idle then .ok else .timeout }

/-- R221: one poll takes one answer. -/
theorem State.poll_eq (s : State) :
    s.poll = { s.afterDraws 1 with
      work := { s.work with v := s.drawAt 0, polls := s.work.polls + 1 }
      ans := s.drawAt 0
      hist := s.hist ++ [.ssRd s.cfg.offPhycfg (s.drawAt 0)] } := by
  rw [State.poll, State.ssRd32_phycfg]
  rfl

theorem State.sampledBusy_poll (s : State) : s.poll.sampledBusy = (s.drawAt 0 &&& s.cfg.mPhyBusy != 0) := by
  rw [State.poll_eq]
  rfl

/-- A poll that ends the wait. -/
theorem State.afterWait_nil (s : State) (idle : Bool) :
    { s.poll with ret := if idle then .ok else .timeout } = s.afterWait [] (s.drawAt 0) idle := by
  rw [State.poll_eq]
  rfl

/-- A wait goes on after a busy poll and its delay. -/
theorem State.afterWait_poll (s : State) (vs : List Word) (v : Word) (idle : Bool) :
    (s.poll.delay s.cfg.tBusy).afterWait vs v idle = s.afterWait (s.drawAt 0 :: vs) v idle := by
  rw [State.poll_eq]
  simp [State.afterWait, State.afterDraws, State.delay, waitTrail, busyTrail, Nat.add_assoc, Nat.add_comm 1]

/-- R221: what `n` retries after the first poll can do: the answers of a wait under that bound, and the state they leave. -/
theorem pollLoop_eq (n : Nat) (s : State) :
    ∃ vs v idle, waitAnswers { s.cfg with waitretryMax := n } vs v idle ∧ s.answersFrom 0 vs v ∧ pollLoop n s = s.afterWait vs v idle := by
  induction n generalizing s with
  | zero =>
    refine ⟨[], s.drawAt 0, !s.poll.sampledBusy, ?_, s.answersFrom_nil 0, ?_⟩
    · rw [State.sampledBusy_poll]
      by_cases busy : s.drawAt 0 &&& s.cfg.mPhyBusy = 0 <;> simp [waitAnswers, busy]
    · rw [← State.afterWait_nil, pollLoop]
      cases s.poll.sampledBusy <;> rfl
  | succ n ih =>
    by_cases busy : s.drawAt 0 &&& s.cfg.mPhyBusy = 0
    · refine ⟨[], s.drawAt 0, true, ⟨Nat.zero_le _, by simp, busy⟩, s.answersFrom_nil 0, ?_⟩
      rw [← State.afterWait_nil, pollLoop, State.sampledBusy_poll, busy]
      rfl
    · obtain ⟨vs, v, idle, ⟨len, allBusy, last⟩, answers, run⟩ := ih (s.poll.delay s.cfg.tBusy)
      refine ⟨s.drawAt 0 :: vs, v, idle, ⟨Nat.succ_le_succ len, List.forall_mem_cons.mpr ⟨busy, allBusy⟩, ?_⟩, ?_, ?_⟩
      · cases idle <;> simpa using last
      · exact State.answersFrom_cons (State.answersFrom_of_drop (n := 1) (by simp [State.poll_eq]) (by simp [State.poll_eq]) answers)
      · rw [pollLoop, State.sampledBusy_poll, if_pos (bne_iff_ne.mpr busy), run, State.afterWait_poll]

/-- R221: WAIT_PHY_IDLE is the loop of WAITRETRY_MAX retries, started with no poll counted. -/
theorem State.waitPhyIdle_eq (s : State) : ∃ vs v idle, waitAnswers s.cfg vs v idle ∧ s.answersFrom 0 vs v ∧
    s.waitPhyIdle = { s with work := { s.work with polls := 0 } }.afterWait vs v idle :=
  pollLoop_eq s.cfg.waitretryMax { s with work := { s.work with polls := 0 } }

/-- Settles O45: the wait's closed form, field by field. -/
theorem waitPhyIdlePollsAtMostTheBound : Obligations.WaitPhyIdlePollsAtMostTheBound := fun s => by
  obtain ⟨vs, v, idle, hw, hv, run⟩ := s.waitPhyIdle_eq
  refine ⟨vs, v, idle, hw, hv, congrArg _ (run.trans ?_)⟩
  simp [State.afterWait, State.afterDraws]

/-- R226: the mark goes to the newest request. -/
theorem markLast_append (l : List PhyReq) (r : PhyReq) : markLast (l ++ [r]) = l ++ [{ r with done := true }] := by
  induction l with
  | nil => rfl
  | cons x xs ih =>
    cases xs with
    | nil => rfl
    | cons y ys => exact congrArg (x :: ·) ih

/-- R222: the argument of LOG 1 as a number. -/
theorem calTimeoutArg_eq (a : Byte) {phase : Nat} (h : phase < 256) :
    (a.zeroExtend 32 <<< 8 ||| BitVec.ofNat 32 phase : Word) = BitVec.ofNat 32 (256 * a.toNat + phase) := by
  apply BitVec.eq_of_toNat_eq
  have ha := a.isLt
  have low : 256 * a.toNat ||| phase = 256 * a.toNat + phase := (Nat.two_pow_add_eq_or_of_lt (i := 8) h a.toNat).symm
  have shifted : (a.zeroExtend 32 <<< 8 : Word).toNat = 256 * a.toNat := by
    simp [Nat.shiftLeft_eq]
    omega
  rw [BitVec.toNat_or, BitVec.toNat_ofNat, BitVec.toNat_ofNat, shifted, Nat.mod_eq_of_lt (by omega), low, Nat.mod_eq_of_lt (by omega)]

/-- R222, R361: an exhausted wait, its argument as a number. -/
theorem State.calTimeout_eq (s : State) (a : Byte) {phase : Nat} (h : phase < 256) :
    s.calTimeout a phase = { s with
      calFail := true
      raised := s.raised ++ [.calTimeout a phase]
      hist := s.hist ++ [.log 1 (BitVec.ofNat 32 (256 * a.toNat + phase))]
      ret := .fail } := by
  rw [← calTimeoutArg_eq a h]
  rfl

/-- R158, R222: the control word starts the request it packs. -/
theorem State.phyWrite_eq {s : State} (h : s.cfg.Wf) (a d : Byte) :
    s.phyWrite a d = { s with
      phyLog := s.phyLog ++ [⟨a, d, false⟩]
      hist := s.hist ++ [.ssWr s.cfg.offPhycfg (phyControl s.cfg a d), .delay s.cfg.tPhywr] } := by
  rw [State.phyWrite, State.ssWr32_phycfg h, State.phyStarts_write s (phyIsWrite_phyControl s.cfg a d), phyRequest_phyControl h]
  simp [State.delay]

/-- R222: the write and the second wait, in closed form. -/
theorem State.calFinish_eq {s : State} (h : s.cfg.Wf) (a d : Byte) :
    ∃ ws w idle, waitAnswers s.cfg ws w idle ∧ s.answersFrom 0 ws w ∧
      s.calFinish a d = { s.afterDraws (ws.length + 1) with
        work := { s.work with v := w, polls := ws.length + 1 }
        ans := w
        phyLog := s.phyLog ++ [⟨a, d, idle⟩]
        hist := s.hist ++ [.ssWr s.cfg.offPhycfg (phyControl s.cfg a d), .delay s.cfg.tPhywr] ++ waitTrail s.cfg ws w ++
          (if idle then [] else [.log 1 (BitVec.ofNat 32 (256 * a.toNat + 1))])
        calFail := if idle then s.calFail else true
        raised := if idle then s.raised else s.raised ++ [.calTimeout a 1]
        ret := if idle then .ok else .fail } := by
  obtain ⟨ws, w, idle, hw, hv, run⟩ := (s.phyWrite a d).waitPhyIdle_eq
  rw [State.phyWrite_eq h] at hw hv run
  refine ⟨ws, w, idle, hw, hv, ?_⟩
  rw [State.calFinish, State.phyWrite_eq h, run]
  cases idle with
  | false => simp [State.afterWait, State.calTimeout_eq, State.afterDraws]
  | true => simp [State.afterWait, markLast_append, State.afterDraws]

/-- Settles O46: the first wait decides whether there is a write, the second how the command ends. -/
theorem calibrateWaitsWritesWaits : Obligations.CalibrateWaitsWritesWaits := fun s a d h => by
  obtain ⟨vs, v, idle, hw, hv, run⟩ := State.waitPhyIdle_eq { s with work := { s.work with cala := a, cald := d } }
  refine ⟨s.calibrate a d, vs, v, rfl, hv, ?_⟩
  rw [State.calibrate, run]
  cases idle with
  | false =>
    refine .inl ⟨hw, ?_⟩
    simp [State.afterWait, State.calTimeout_eq, State.afterDraws]
  | true =>
    obtain ⟨ws, w, idle, hw', hv', run'⟩ := State.calFinish_eq
      (s := { s with work := { s.work with cala := a, cald := d, polls := 0 } }.afterWait vs v true) h a d
    refine .inr ⟨hw, ws, w, idle, hw', State.answersFrom_of_drop (n := vs.length + 1) rfl rfl hv', run'.trans ?_⟩
    simp [State.afterWait, State.afterDraws, Nat.add_assoc]

/-- R222, R245: one CALIBRATE whose two answers see the busy flag clear: four requests and the completed write. -/
theorem State.calibrate_of_idle {s : State} (h : s.cfg.Wf) (a d : Byte) {u v : Word} {rest : List Word} (hd : s.draws = u :: v :: rest)
    (hu : u &&& s.cfg.mPhyBusy = 0) (hv : v &&& s.cfg.mPhyBusy = 0) :
    (s.calibrate a d).hist = s.hist ++ idleCalEvents s.cfg a d u v ∧
    (s.calibrate a d).phyLog = s.phyLog ++ [⟨a, d, true⟩] ∧ (s.calibrate a d).calFail = s.calFail ∧
    (s.calibrate a d).ret = .ok ∧ (s.calibrate a d).draws = rest := by
  have first : s.drawAt 0 = u := by simp [State.drawAt, hd]
  have second : s.drawAt 1 = v := by simp [State.drawAt, hd]
  obtain ⟨t, vs, x, run, hx, ends⟩ := calibrateWaitsWritesWaits s a d h
  obtain rfl : s.calibrate a d = t := Host.Outcome.next.inj run
  rcases ends with ⟨hw, -⟩ | ⟨hw, ws, w, idle, hw', hx', ht⟩
  · exact absurd (waitAnswers_of_idle hw hx (first ▸ hu)).2.2 Bool.false_ne_true
  · obtain ⟨rfl, rfl, -⟩ := waitAnswers_of_idle hw hx (first ▸ hu)
    obtain ⟨rfl, rfl, rfl⟩ := waitAnswers_of_idle hw' hx' (second ▸ hv)
    rw [ht]
    simp [State.afterDraws, hd, idleCalEvents, waitTrail, busyTrail, first, second]

/-- Settles O48: the rows and CAL_SEQ are made of CALIBRATE, and three idle CALIBRATEs follow one another. -/
theorem calSeqIsThreeCalibrations : Obligations.CalSeqIsThreeCalibrations := by
  refine ⟨fun s => ⟨⟨_, rfl, rfl⟩, ⟨_, rfl, rfl⟩, _, rfl, rfl⟩, fun s => ⟨_, _, _, rfl, rfl, rfl, rfl⟩,
    fun s v1 v2 v3 v4 v5 v6 rest h hd idle => ⟨s.calSeq, rfl, ?_⟩⟩
  simp only [List.forall_mem_cons] at idle
  obtain ⟨h1, h2, h3, h4, h5, h6, -⟩ := idle
  have cfg1 : (s.calibrate 0x00 0x80).cfg = s.cfg := by simp
  have cfg2 : ((s.calibrate 0x00 0x80).calibrate 0x01 0x04).cfg = s.cfg := by simp
  obtain ⟨hist1, phy1, fail1, -, draws1⟩ := State.calibrate_of_idle h 0x00 0x80 hd h1 h2
  obtain ⟨hist2, phy2, fail2, -, draws2⟩ :=
    State.calibrate_of_idle (cfg1 ▸ h) 0x01 0x04 draws1 (cfg1 ▸ h3) (cfg1 ▸ h4)
  obtain ⟨hist3, phy3, fail3, ret3, -⟩ :=
    State.calibrate_of_idle (cfg2 ▸ h) 0x68 0xB4 draws2 (cfg2 ▸ h5) (cfg2 ▸ h6)
  refine ⟨?_, ?_, fail3.trans (fail2.trans fail1), ret3⟩
  · rw [State.calSeq, hist3, hist2, hist1, cfg1, cfg2, idleCalSeqEvents, List.append_assoc, List.append_assoc, List.append_assoc]
  · rw [State.calSeq, phy3, phy2, phy1, List.append_assoc, List.append_assoc]
    rfl

end Sys2Proof.Machine
end

section
/-! PROOF. The requests of CALIBRATE counted by kind, part by part (CalCounts), and the statement O47. -/

namespace Sys2Proof.Machine

/-- R225: the requests of a calibration history by kind: reads of PHYCFG, delays of T_BUSY, writes each with its delay T_PHYWR, LOGs, and
nothing else. -/
structure CalCounts (c : Cfg) (h : List Event) (polled busy written logged : Nat) : Prop where
  polls : countPolls c h = polled
  delays : ∀ n, countDelays n h = busy * (c.tBusy == n).toNat + written * (c.tPhywr == n).toNat
  writes : countEvents (Event.isPhyWrite c) h = written
  logs : countEvents Event.isLog h = logged
  length : h.length = polled + busy + 2 * written + logged

namespace CalCounts

theorem append {c : Cfg} {g h : List Event} {p b w l p' b' w' l' : Nat} (hg : CalCounts c g p b w l) (hh : CalCounts c h p' b' w' l') :
    CalCounts c (g ++ h) (p + p') (b + b') (w + w') (l + l') := by
  have both : ∀ q, countEvents q (g ++ h) = countEvents q g + countEvents q h := fun q => by simp [countEvents]
  refine ⟨(both _).trans (congrArg₂ _ hg.polls hh.polls), fun n => ?_, (both _).trans (congrArg₂ _ hg.writes hh.writes),
    (both _).trans (congrArg₂ _ hg.logs hh.logs), ?_⟩
  · exact (both _).trans ((congrArg₂ _ (hg.delays n) (hh.delays n)).trans (by ring))
  · rw [List.length_append, hg.length, hh.length]
    ring

theorem nil (c : Cfg) : CalCounts c [] 0 0 0 0 :=
  ⟨rfl, fun _ => by simp [countDelays, countEvents], rfl, rfl, rfl⟩

theorem read (c : Cfg) (v : Word) : CalCounts c [.ssRd c.offPhycfg v] 1 0 0 0 :=
  ⟨by simp [countPolls, countEvents], fun _ => by simp [countDelays, countEvents], rfl, rfl, rfl⟩

theorem log (c : Cfg) (x : Word) : CalCounts c [.log 1 x] 0 0 0 1 :=
  ⟨rfl, fun _ => by simp [countDelays, countEvents], rfl, rfl, rfl⟩

theorem busyDelay (c : Cfg) : CalCounts c [.delay c.tBusy] 0 1 0 0 :=
  ⟨rfl, fun n => by cases same : c.tBusy == n <;> simp [countDelays, countEvents, same], rfl, rfl, rfl⟩

theorem write (c : Cfg) (k : Word) : CalCounts c [.ssWr c.offPhycfg k, .delay c.tPhywr] 0 0 1 0 :=
  ⟨rfl, fun n => by cases same : c.tPhywr == n <;> simp [countDelays, countEvents, same],
    by simp [countEvents, Event.isPhyWrite], rfl, rfl⟩

/-- R221: a wait reads once more than it delays. -/
theorem wait (c : Cfg) (vs : List Word) (v : Word) : CalCounts c (waitTrail c vs v) (vs.length + 1) vs.length 0 0 := by
  induction vs with
  | nil => exact read c v
  | cons u us ih => simpa [waitTrail, busyTrail, Nat.add_comm] using ((read c u).append (busyDelay c)).append ih

/-- R224: the LOG of an exhausted wait. -/
theorem logUnless (c : Cfg) (idle : Bool) (x : Word) : CalCounts c (if idle then [] else [.log 1 x]) 0 0 0 (if idle then 0 else 1) := by
  cases idle with
  | false => exact log c x
  | true => exact nil c

/-- R225: at most 2 * WAITRETRY_MAX delays of T_BUSY and one of T_PHYWR, which are one count when the two are equal. -/
theorem delays_le {c : Cfg} {h : List Event} {p b w l : Nat} (hc : CalCounts c h p b w l) (hb : b ≤ 2 * c.waitretryMax) (hw : w ≤ 1) :
    if c.tBusy = c.tPhywr then countDelays c.tBusy h ≤ 2 * c.waitretryMax + 1
    else countDelays c.tBusy h ≤ 2 * c.waitretryMax ∧ countDelays c.tPhywr h ≤ 1 := by
  split
  next same => simp [hc.delays, same, Nat.add_le_add hb hw]
  next apart => simp [hc.delays, beq_false_of_ne apart, beq_false_of_ne (Ne.symm apart), hb, hw]

end CalCounts

/-- Settles O47: the events of O46's outcomes, counted; a PHY that stays busy can only end in the first. -/
theorem calibrateIsBounded : Obligations.CalibrateIsBounded := by
  refine ⟨fun s t a d h run => ?_, fun s a d h busy => ?_⟩
  · obtain ⟨t', vs, v, run', -, ends⟩ := calibrateWaitsWritesWaits s a d h
    obtain rfl : t' = t := Host.Outcome.next.inj (run'.symm.trans run)
    rcases ends with ⟨⟨-, -, -, full⟩, ht⟩ | ⟨⟨len, -, -⟩, ws, w, idle, ⟨len', -, -⟩, -, ht⟩
    · have counts := (CalCounts.wait s.cfg vs v).append (.log s.cfg (BitVec.ofNat 32 (256 * a.toNat)))
      have failed : t'.ret = .fail := by rw [ht]
      refine ⟨_, by rw [ht]; exact List.append_assoc .., .inr ⟨counts.polls.trans (by rw [full]), counts.writes, failed⟩, .inr failed,
        by rw [failed]; exact counts.logs, counts.delays_le (by omega) (by omega), counts.length.trans_le (by omega)⟩
    · have counts := (CalCounts.wait s.cfg vs v).append ((CalCounts.write s.cfg (phyControl s.cfg a d)).append
        ((CalCounts.wait s.cfg ws w).append (.logUnless s.cfg idle (BitVec.ofNat 32 (256 * a.toNat + 1)))))
      have result : t'.ret = if idle then .ok else .fail := by rw [ht]
      refine ⟨_, by rw [ht]; simp only [List.append_assoc], .inl ⟨?_, ?_, counts.writes⟩, ?_, counts.logs.trans ?_,
        counts.delays_le (by omega) (by omega), counts.length.trans_le ?_⟩
      · rw [counts.polls]; omega
      · rw [counts.polls]; omega
      · rw [result]; cases idle <;> simp
      · rw [result]; cases idle <;> rfl
      · split <;> omega
  · obtain ⟨t, vs, v, run, ⟨-, hv⟩, ends⟩ := calibrateWaitsWritesWaits s a d h
    rcases ends with ⟨⟨-, -, -, full⟩, ht⟩ | ⟨⟨len, -, idle⟩, -⟩
    · have counts := (CalCounts.wait s.cfg vs v).append (.log s.cfg (BitVec.ofNat 32 (256 * a.toNat)))
      exact ⟨t, _, run, by rw [ht]; exact List.append_assoc .., by rw [ht], by rw [ht], counts.polls.trans (by rw [full]),
        (counts.delays _).trans (by simp [full]), counts.logs, counts.writes, counts.length.trans (by omega)⟩
    · exact absurd idle (hv ▸ busy _ (by omega))

end Sys2Proof.Machine
end

section
/-! PROOF. The rows of the step table in closed form, the admission of ATTACH, and the statements O22 and O38 to O43. -/

namespace Sys2Proof.Machine

/-- R151, R415: a command on a free port runs. -/
theorem State.onPort_free {s : State} (h : s.busy = false) (f : State → State) : s.onPort f = f s := if_neg (by simp [h])

theorem State.attachBody_attached {s : State} (h : s.attached = true) : s.attachBody = s.refuse .alreadyAttached statusAlreadyAttached :=
  if_pos h

theorem State.attachBody_refused {s : State} (h : s.attached = false) (hr : s.nextResOk = false) :
    s.attachBody = s.takeResOk.refuse .resourceFail statusResource := by
  simp [State.attachBody, h, hr]

theorem State.attachBody_admitted {s : State} (h : s.attached = false) (hr : s.nextResOk = true) :
    s.attachBody = s.takeResOk.setAttached.goto 1 := by
  simp [State.attachBody, h, hr]

/-- Settles O22: the three ways through the admission checks, in their order. -/
theorem attachAdmission : Obligations.AttachAdmission := by
  intro s wdata bus devfn off hb
  have runs : exec (.attach wdata bus devfn off) s = .next (s.accept 0x1 wdata bus devfn off).attachBody :=
    congrArg _ (State.onPort_free hb _)
  refine ⟨fun ha => ?_, fun ha hr => ?_, fun ha hr => ?_⟩
  · rw [runs, State.attachBody_attached (s := s.accept 0x1 wdata bus devfn off) ha]
    simp [State.refuse, State.complete, State.raise, State.accept, statusAlreadyAttached, hb]
  · rw [runs, State.attachBody_refused (s := s.accept 0x1 wdata bus devfn off) ha hr]
    simp [State.refuse, State.complete, State.raise, State.takeResOk, State.accept, statusResource, hb]
  · rw [runs, State.attachBody_admitted (s := s.accept 0x1 wdata bus devfn off) ha hr]
    rfl

/-- A row is what its request leaves, and the step index or the result that it then writes. -/
theorem next_congr (f : State → State) {t u : State} (h : t = u) : (.next (f t) : Host.Outcome State Fault Refusal) = .next (f u) :=
  congrArg (fun t => Host.Outcome.next (f t)) h

/-- R244, R247, R250: the port clock switched off. -/
theorem State.clockOff_eq {s : State} (h : s.cfg.Wf) : s.scMod32 s.cfg.offClkcfg1 s.cfg.mPcieClkEn 0 = { s with
    sc := { s.sc with clkcfg1 := s.sc.clkcfg1 &&& ~~~s.cfg.mPcieClkEn }
    hist := s.hist ++ [.scMod s.cfg.offClkcfg1 s.cfg.mPcieClkEn 0] } := by
  simp [State.scMod32_clkcfg1 h rfl rfl]

/-- R246: the port clock switched on. -/
theorem State.clockOn_eq {s : State} (h : s.cfg.Wf) : s.scMod32 s.cfg.offClkcfg1 0 s.cfg.mPcieClkEn = { s with
    sc := { s.sc with clkcfg1 := s.sc.clkcfg1 ||| s.cfg.mPcieClkEn }
    hist := s.hist ++ [.scMod s.cfg.offClkcfg1 0 s.cfg.mPcieClkEn] } := by
  simp [State.scMod32_clkcfg1 h rfl rfl]

/-- R244: the GPIO-mux reservation bit cleared. -/
theorem State.gpioFree_eq {s : State} (h : s.cfg.Wf) : s.scMod32 s.cfg.offGpiomode s.cfg.mGpiomuxRsv 0 = { s with
    sc := { s.sc with gpiomode := s.sc.gpiomode &&& ~~~s.cfg.mGpiomuxRsv }
    hist := s.hist ++ [.scMod s.cfg.offGpiomode s.cfg.mGpiomuxRsv 0] } := by
  simp [State.scMod32_gpiomode h rfl rfl]

/-- R286: the legacy interrupt masked. -/
theorem State.maskLegacy_eq {s : State} (h : s.cfg.Wf) : s.brMod32 s.cfg.offPcimsk 0 s.cfg.mPcimskLegacy = { s with
    br := { s.br with pcimsk := s.br.pcimsk ||| s.cfg.mPcimskLegacy }
    ans := s.br.pcimsk
    hist := s.hist ++ [.brRd s.cfg.offPcimsk s.br.pcimsk, .brWr s.cfg.offPcimsk (s.br.pcimsk ||| s.cfg.mPcimskLegacy)] } := by
  simp [State.brMod32_pcimsk h rfl rfl]

/-- R244, R248: the host-mode select cleared. -/
theorem State.hostselOff_eq {s : State} (h : s.cfg.Wf) : s.scMod32 s.cfg.offSyscfg1 s.cfg.mHostsel 0 = { s with
    sc := { s.sc with syscfg1 := s.sc.syscfg1 &&& ~~~s.cfg.mHostsel }
    hist := s.hist ++ [.scMod s.cfg.offSyscfg1 s.cfg.mHostsel 0] } := by
  simp [State.scMod32_syscfg1 h rfl rfl]

/-- Settles O38: one request a row. -/
theorem bringupRows1To5And9To11 : Obligations.BringupRows1To5And9To11 := fun _ h =>
  ⟨next_congr (·.goto 2) (State.gpioFree_eq h), next_congr (·.goto 3) (State.hostselOff_eq h), rfl,
    next_congr (·.goto 5) (State.clockOff_eq h),
    next_congr (fun t => (t.setLs .calibrating).goto 6) (State.scMod32_pplldrv h rfl rfl _ _), rfl,
    next_congr (·.goto 11) (State.clockOn_eq h), rfl⟩

/-- R20, R36: the state after a sample of the environment, recorded in the history as `e`. -/
def State.afterSample (s : State) (e : Event) : State :=
  { s.afterDraws 1 with work := { s.work with v := s.drawAt 0 }, ans := s.drawAt 0, hist := s.hist ++ [e] }

/-- R247, R248: the lock bit of the sample decides. -/
theorem exec_seq12 (s : State) : exec .seq12 s = .next (
    if s.drawAt 0 &&& s.cfg.mPllLock = 0 then ((s.afterSample (.scRd s.cfg.offPpllcfg1 (s.drawAt 0))).raise .pllUnlock).goto 13
    else (s.afterSample (.scRd s.cfg.offPpllcfg1 (s.drawAt 0))).goto 15) := by
  simp only [exec, execSeq12, s.scRd32_ppllcfg1]
  rfl

/-- R249, R250: the link bit of the sample decides. -/
theorem exec_seq25 (s : State) : exec .seq25 s = .next (
    if s.drawAt 0 &&& s.cfg.mLinkUp = 0 then ((s.afterSample (.ssRd s.cfg.offStatus (s.drawAt 0))).raise .linkDown).goto 26
    else (s.afterSample (.ssRd s.cfg.offStatus (s.drawAt 0))).goto 30) := by
  simp only [exec, execSeq25, s.ssRd32_status]
  rfl

/-- Settles O39: each sample is one draw, and its bit decides the next step. -/
theorem sampleRows12And25 : Obligations.SampleRows12And25 := fun s _ =>
  ⟨fun hv => (exec_seq12 s).trans (congrArg _ (if_pos hv)), fun hv => (exec_seq12 s).trans (congrArg _ (if_neg hv)),
    fun hv => (exec_seq25 s).trans (congrArg _ (if_pos hv)), fun hv => (exec_seq25 s).trans (congrArg _ (if_neg hv))⟩

/-- Settles O40: one request a row. -/
theorem bringupRows15To24 : Obligations.BringupRows15To24 := fun _ h =>
  ⟨next_congr (·.goto 16) (State.scMod32_pplldrv h rfl rfl _ _), rfl, rfl, next_congr (·.goto 19) (State.scMod32_syscfg1 h rfl rfl _ _),
    next_congr (·.goto 20) (State.scMod32_clkgen0 h rfl rfl _ _), next_congr (·.goto 21) (State.scMod32_clkgen1 h rfl rfl _ _), rfl, rfl,
    next_congr (·.goto 24) (State.hostselOff_eq h), rfl⟩

/-- R253: the bits of aux: cal_fail, five zeros, the outcome. -/
theorem attachAux_fields (calFail : Bool) (outcome : BitVec 2) :
    (attachAux calFail outcome).getLsbD 7 = calFail ∧ (attachAux calFail outcome).extractLsb' 2 5 = 0 ∧
    (attachAux calFail outcome).extractLsb' 0 2 = outcome := by
  have table : ∀ (c : Bool) (o : BitVec 2),
      (attachAux c o).getLsbD 7 = c ∧ (attachAux c o).extractLsb' 2 5 = 0 ∧ (attachAux c o).extractLsb' 0 2 = o := by decide
  exact table calFail outcome

/-- R253: aux of a completed ATTACH as a choice on cal_fail. -/
theorem attachAux_eq (calFail : Bool) (outcome : BitVec 2) :
    attachAux calFail outcome = if calFail then 0x80 ||| outcome.zeroExtend 8 else outcome.zeroExtend 8 := by
  cases calFail <;> simp [attachAux]

/-- R253: a halting step writes the result of ATTACH, aux told apart by cal_fail. -/
theorem State.halt_eq (s : State) (l : LinkState) (outcome : BitVec 2) : s.halt l outcome = { s with
    seq := 0, ls := l, busy := false, work := { s.work with outcome := outcome }
    res := { status := 0, aux := if s.calFail then 0x80 ||| outcome.zeroExtend 8 else outcome.zeroExtend 8, rdata := 0 } } := by
  rw [← attachAux_eq]
  rfl

/-- Settles O41: the power-down requests, and the two halting rows. -/
theorem disableRows13And14And26To29 : Obligations.DisableRows13And14And26To29 := by
  intro s h
  refine ⟨rfl, (next_congr (·.halt .disabled 1) (State.clockOff_eq h)).trans (congrArg _ (State.halt_eq _ _ _)), rfl,
    next_congr (·.goto 28) (State.clockOff_eq h), next_congr (·.goto 29) (State.scMod32_pplldrv h rfl rfl _ _),
    congrArg _ (State.halt_eq (s.log 2 0) _ _)⟩

/-- Settles O42: one register a row. -/
theorem windowRows30To37 : Obligations.WindowRows30To37 := fun _ h =>
  ⟨next_congr (·.goto 31) (State.brWr32_membase h rfl rfl _), next_congr (·.goto 32) (State.brWr32_iobase h rfl rfl _),
    next_congr (·.goto 33) (State.ssWr32_bar0setup h rfl rfl _), next_congr (·.goto 34) (State.ssWr32_imbasebar0 h rfl rfl _),
    next_congr (·.goto 35) (State.ssWr32_id h rfl rfl _), next_congr (·.goto 36) (State.ssWr32_cls h rfl rfl _),
    next_congr (·.goto 37) (State.ssWr32_subid h rfl rfl _), next_congr (·.goto 38) (State.maskLegacy_eq h)⟩

/-- Settles O43: REGISTER and the halt in UP; the idle row is the identity. -/
theorem registerRowAndIdle : Obligations.RegisterRowAndIdle := fun s => ⟨congrArg _ (State.halt_eq s.register _ _), rfl⟩

end Sys2Proof.Machine
end

section
/-! PROOF. What a row does to the control state (State.RowControl), what a command does (State.Answered and its two exceptions), and the
statements O10 and O18. -/

namespace Sys2Proof.Machine

/-- R243: the column "next" of the step table; the halting rows, and the idle one, give 0. -/
def nextSteps (n : BitVec 6) : List (BitVec 6) :=
  if n = 0 ∨ n = 14 ∨ n = 29 ∨ n = 38 then [0]
  else if n = 12 then [13, 15]
  else if n = 25 then [26, 30]
  else [n + 1]

/-- R252: how many rows are left until bring-up halts, at most. -/
def stepsLeft (n : BitVec 6) : Nat :=
  if n.toNat ≤ 12 then 33 - n.toNat
  else if n.toNat ≤ 14 then 15 - n.toNat
  else if n.toNat ≤ 25 then 35 - n.toNat
  else if n.toNat ≤ 29 then 30 - n.toNat
  else 39 - n.toNat

/-- R249, R250, R253: bring-up has halted: in UP with outcome 0, or in DISABLED with outcome 1 or 2. -/
structure State.Halted (t : State) : Prop where
  busy : t.busy = false
  outcome : ∃ o, t.res = { status := statusOk, aux := attachAux t.calFail o, rdata := 0 } ∧
    ((o = 0 ∧ t.ls = .up) ∨ ((o = 1 ∨ o = 2) ∧ t.ls = .disabled))

/-- R243, R252: what the row at step `n` leaves of the control state. -/
structure State.RowControl (n : BitVec 6) (s t : State) : Prop where
  attached : t.attached = s.attached
  fixup : t.fixup = s.fixup
  inputs : t.inputs = s.inputs
  next : t.seq ∈ nextSteps n
  running : t.seq ≠ 0 → t.busy = s.busy ∧ t.registered = s.registered
  halted : t.seq = 0 → t.Halted ∧ (t.registered = true ↔ t.ls = .up ∨ s.registered = true)

/-- A row that goes on. -/
theorem State.RowControl.goto {s u : State} {n m : BitVec 6} (hm : m ∈ nextSteps n ∧ m ≠ 0) (ha : u.attached = s.attached := by simp)
    (hf : u.fixup = s.fixup := by simp) (hi : u.inputs = s.inputs := by simp) (hb : u.busy = s.busy := by simp)
    (hr : u.registered = s.registered := by simp) : State.RowControl n s (u.goto m) :=
  ⟨ha, hf, hi, hm.1, fun _ => ⟨hb, hr⟩, fun h => absurd h hm.2⟩

/-- A row that halts. -/
theorem State.RowControl.halt {s u : State} {n : BitVec 6} {l : LinkState} {o : BitVec 2} (hn : 0 ∈ nextSteps n)
    (ho : (o = 0 ∧ l = .up) ∨ ((o = 1 ∨ o = 2) ∧ l = .disabled)) (hr : u.registered = true ↔ l = .up ∨ s.registered = true := by simp)
    (ha : u.attached = s.attached := by simp) (hf : u.fixup = s.fixup := by simp) (hi : u.inputs = s.inputs := by simp) :
    State.RowControl n s (u.halt l o) :=
  ⟨ha, hf, hi, hn, fun h => absurd rfl h, fun _ => ⟨⟨rfl, o, rfl, ho⟩, hr⟩⟩

/-- R162: the row of a step index has that index. -/
theorem encode_decodeStep {n : BitVec 6} {i : Instr} (hd : decodeStep n = .ok i) : encode i = some (.step n) := by
  have table : ∀ n : BitVec 6, ∀ i ∈ (decodeStep n).toOption, encode i = some (.step n) := by decide
  exact table n i (by rw [hd]; rfl)

/-- R243: every row completes. -/
theorem exec_row {n : BitVec 6} {i : Instr} (hd : decodeStep n = .ok i) (h0 : n ≠ 0) (s : State) :
    ∃ t, exec i s = .next t ∧ State.RowControl n s t := by
  have hn := encode_decodeStep hd
  cases i with
  | seq01 | seq02 | seq03 | seq04 | seq05 | seq06 | seq07 | seq08 | seq09 | seq10 | seq11 | seq13 | seq15 | seq16 | seq17 | seq18
  | seq19 | seq20 | seq21 | seq22 | seq23 | seq24 | seq26 | seq27 | seq28 | seq30 | seq31 | seq32 | seq33 | seq34 | seq35 | seq36
  | seq37 =>
    cases hn
    exact ⟨_, rfl, .goto (by decide)⟩
  | seq12 | seq25 =>
    cases hn
    refine ⟨_, rfl, ?_⟩
    split <;> exact .goto (by decide)
  | seq14 | seq29 | seq38 =>
    cases hn
    exact ⟨_, rfl, .halt (by decide) (by decide)⟩
  | seqIdle =>
    cases hn
    exact absurd rfl h0
  | _ => cases hn

/-- R33, R243: where a row leads: to a row of the table, closer to the end, in the stage that the Link State says; or to a halt. -/
theorem nextSteps_stage {n m : BitVec 6} {i : Instr} (hd : decodeStep n = .ok i) (h0 : n ≠ 0) (hm : m ∈ nextSteps n) (hm0 : m ≠ 0) :
    m.toNat ≤ 38 ∧ lsAfter i (lsDuring n) = lsDuring m ∧ stepsLeft m < stepsLeft n := by
  have table : ∀ n : BitVec 6, n ≠ 0 → ∀ i ∈ (decodeStep n).toOption, ∀ m ∈ nextSteps n, m ≠ 0 →
      m.toNat ≤ 38 ∧ lsAfter i (lsDuring n) = lsDuring m ∧ stepsLeft m < stepsLeft n := by decide
  exact table n h0 i (by rw [hd]; rfl) m hm hm0

/-- R243: no stage of bring-up is UP. -/
theorem lsDuring_ne_up (n : BitVec 6) : lsDuring n ≠ .up := by
  unfold lsDuring
  repeat' split
  all_goals decide

/-- R33, R37, R252: while a row is executed the port is locked, ATTACH admitted, and nothing registered. -/
theorem State.ControlInv.bringingUp {s : State} (h : s.ControlInv) (h0 : s.seq ≠ 0) :
    s.busy = true ∧ s.fixup = false ∧ s.ls = lsDuring s.seq ∧ s.attached = true ∧ s.registered = false := by
  obtain ⟨-, hbusy, hfix, hrow, -, hreg⟩ := h
  obtain ⟨hls, hatt⟩ := hrow h0
  refine ⟨hbusy.mpr (.inl h0), Bool.eq_false_iff.mpr fun hf => h0 (hfix hf).1, hls, hatt, Bool.eq_false_iff.mpr fun hr => ?_⟩
  exact lsDuring_ne_up s.seq (hls ▸ hreg.mp hr)

/-- R252, R253: a row keeps the control invariant. -/
theorem State.ControlInv.row {s t : State} {i : Instr} (h : s.ControlInv) (h0 : s.seq ≠ 0) (hd : decodeStep s.seq = .ok i)
    (hx : exec i s = .next t) (ht : State.RowControl s.seq s t) : t.ControlInv := by
  obtain ⟨hbusy, hfix, hls, hatt, hreg⟩ := h.bringingUp h0
  have attached : t.attached = true := ht.attached.trans hatt
  have fixup : t.fixup = false := ht.fixup.trans hfix
  by_cases hend : t.seq = 0
  · obtain ⟨⟨busy, o, -, ends⟩, registered⟩ := ht.halted hend
    have terminal : t.ls = .up ∨ t.ls = .disabled := ends.imp And.right And.right
    simp [State.ControlInv, hend, busy, attached, fixup, terminal, registered, hreg]
  · obtain ⟨busy, registered⟩ := ht.running hend
    obtain ⟨range, stage, -⟩ := nextSteps_stage hd h0 ht.next hend
    have ls : t.ls = lsDuring t.seq := by rw [exec_ls hx, hls, stage]
    exact ⟨range, ⟨fun _ => .inl hend, fun _ => busy.trans hbusy⟩, fun hf => absurd hf (by simp [fixup]), fun _ => ⟨ls, attached⟩,
      fun h => absurd h hend, by simp [registered, hreg, ls, lsDuring_ne_up]⟩

/-- R151, R253: a command that is answered at once: the lock is released, and neither the control state nor a register moves but for those of
the bridge (R41). -/
structure State.Answered (s t : State) : Prop where
  busy : t.busy = false
  cfg : t.cfg = s.cfg
  ls : t.ls = s.ls
  seq : t.seq = s.seq
  attached : t.attached = s.attached
  registered : t.registered = s.registered
  fixup : t.fixup = s.fixup
  inputs : t.inputs = s.inputs
  rstOut : t.rstOut = s.rstOut
  ss : t.ss = s.ss
  sc : t.sc = s.sc

theorem State.Answered.refuse (s : State) (c : Condition) (status : Byte) : s.Answered (s.refuse c status) :=
  ⟨rfl, rfl, rfl, rfl, rfl, rfl, rfl, rfl, rfl, rfl, rfl⟩

theorem State.Answered.mapirqFinish (s : State) (bus : Byte) (slot : BitVec 5) (irq : Byte) :
    s.Answered (s.mapirqFinish bus slot irq) := by
  constructor <;> simp

theorem State.Answered.cfgrdBody (s : State) (w : Width) (bus devfn : Byte) (off : BitVec 12) :
    s.Answered (s.cfgrdBody w bus devfn off) := by
  unfold State.cfgrdBody
  split
  · exact .refuse ..
  · constructor <;> simp

theorem State.Answered.cfgwrBody (s : State) (w : Width) (bus devfn : Byte) (off : BitVec 12) (v : Word) :
    s.Answered (s.cfgwrBody w bus devfn off v) := by
  unfold State.cfgwrBody
  split
  · exact .refuse ..
  · constructor <;> simp

/-- R240 to R242: ATTACH is answered at once or admitted. -/
theorem State.attachBody_cases (s : State) :
    s.Answered s.attachBody ∨ (s.attached = false ∧ s.attachBody = s.takeResOk.setAttached.goto 1) := by
  cases ha : s.attached with
  | true => exact .inl (State.attachBody_attached ha ▸ .refuse ..)
  | false =>
    cases hr : s.nextResOk with
    | false => exact .inl (State.attachBody_refused ha hr ▸ ⟨rfl, rfl, rfl, rfl, rfl, rfl, rfl, rfl, rfl, rfl, rfl⟩)
    | true => exact .inr ⟨rfl, State.attachBody_admitted ha hr⟩

/-- R340 to R343, R292: MAPIRQ is answered at once, but for MAPIRQ(0,0) in UP, which pauses with the inbound BAR open. -/
theorem State.mapirqBody_cases (s : State) (bus : Byte) (slot : BitVec 5) :
    s.Answered (s.mapirqBody bus slot) ∨
    (bus = 0 ∧ slot = 0 ∧ s.ls = .up ∧ s.mapirqBody bus slot = { s.openInbound with fixup := true }) := by
  unfold State.mapirqBody
  split
  · exact .inl (.refuse ..)
  · next up =>
    unfold State.mapirqRun
    split
    · next root => exact .inr ⟨root.1, root.2, not_not.mp up, rfl⟩
    · split
      · exact .inl (.mapirqFinish ..)
      · refine .inl ?_
        constructor <;> simp

/-- R152: what the body of a command can be: an answer at once, an admitted ATTACH, or a MAPIRQ(0,0) that pauses. -/
theorem State.commandBody_cases (s : State) (op : BitVec 4) (wdata : Word) (bus devfn : Byte) (off : BitVec 12) :
    s.Answered (s.commandBody op wdata bus devfn off) ∨
    (s.attached = false ∧ s.commandBody op wdata bus devfn off = s.takeResOk.setAttached.goto 1) ∨
    (op = 0x2 ∧ bus = 0 ∧ slotOf devfn = 0 ∧ s.ls = .up ∧
      s.commandBody op wdata bus devfn off = { s.openInbound with fixup := true }) := by
  unfold State.commandBody
  split
  case h_1 => exact s.attachBody_cases.imp_right .inl
  case h_2 hop =>
    exact (s.mapirqBody_cases bus (slotOf devfn)).imp_right fun root => .inr ⟨BitVec.eq_of_toNat_eq hop, root⟩
  case h_3 | h_4 | h_5 => exact .inl (.cfgrdBody ..)
  case h_6 | h_7 | h_8 => exact .inl (.cfgwrBody ..)
  case h_9 => exact .inl (.refuse ..)

/-- R37, R252: a free port means that no row is executed and no MAPIRQ(0,0) stands between its two writes. -/
theorem State.ControlInv.idle {s : State} (h : s.ControlInv) (hb : s.busy = false) : s.seq = 0 ∧ s.fixup = false := by
  obtain ⟨-, hbusy, -⟩ := h
  rw [hb] at hbusy
  simpa using hbusy

/-- R151: a command word accepted. -/
abbrev State.accepted (s : State) (w : BitVec 64) : State :=
  s.accept (w.extractLsb' 0 4) (w.extractLsb' 32 32) (w.extractLsb' 24 8) (w.extractLsb' 16 8) (w.extractLsb' 4 12)

/-- R151: what a command word leaves on a free port. -/
def State.commanded (s : State) (w : BitVec 64) : State :=
  (s.accepted w).commandBody (w.extractLsb' 0 4) (w.extractLsb' 32 32) (w.extractLsb' 24 8) (w.extractLsb' 16 8) (w.extractLsb' 4 12)

theorem exec_decodeCommand_free {s : State} (w : BitVec 64) (hb : s.busy = false) :
    exec (decodeCommand w) s = .next (s.commanded w) :=
  (exec_decodeCommand w s).trans (congrArg _ (State.onPort_free hb _))

theorem State.commanded_inputs (s : State) (w : BitVec 64) : (s.commanded w).inputs = s.inputs :=
  State.commandBody_forms _ _ _ _ _ _ (P := fun t => t.inputs = s.inputs) (by simp) (by simp) (by simp) (by simp) (by simp)

theorem State.commanded_cases (s : State) (w : BitVec 64) :
    (s.accepted w).Answered (s.commanded w) ∨
    (s.attached = false ∧ s.commanded w = (s.accepted w).takeResOk.setAttached.goto 1) ∨
    (w.extractLsb' 0 4 = 0x2#4 ∧ w.extractLsb' 24 8 = 0#8 ∧ slotOf (w.extractLsb' 16 8) = 0#5 ∧ s.ls = .up ∧
      s.commanded w = { (s.accepted w).openInbound with fixup := true }) :=
  State.commandBody_cases (s.accepted w) _ _ _ _ _

/-- R151, R252: a command on a free port keeps the control invariant. -/
theorem State.ControlInv.command {s : State} (h : s.ControlInv) (hb : s.busy = false) (w : BitVec 64) : (s.commanded w).ControlInv := by
  obtain ⟨hseq, hfix⟩ := h.idle hb
  obtain ⟨-, -, -, -, hidle, hreg⟩ := h
  have ends := hidle hseq
  rcases s.commanded_cases w with ans | ⟨ha, e⟩ | ⟨-, -, -, up, e⟩
  · simp [State.ControlInv, ans.seq, ans.busy, ans.fixup, ans.attached, ans.ls, ans.registered, hseq, hfix, ends, hreg]
  · have ls : s.ls = .reset := by simpa [ha] using ends
    simp [e, State.ControlInv, hfix, ls, lsDuring, hreg]
  · have attached : s.attached = true := by simpa [up] using ends
    simp [e, State.ControlInv, hseq, up, hreg, attached, State.openInbound]

/-- R292: the rest of a MAPIRQ(0,0) keeps the control invariant. -/
theorem State.ControlInv.resume {s : State} (h : s.ControlInv) (hf : s.fixup = true) : s.mapirqResume.ControlInv := by
  obtain ⟨-, -, hfix, -, hidle, hreg⟩ := h
  obtain ⟨hseq, up⟩ := hfix hf
  simpa [State.ControlInv, hseq, up, hreg] using hidle hseq

/-- R400: hardware reset leads to the control invariant from any state. -/
theorem State.controlInv_hardwareReset (s : State) : s.hardwareReset.ControlInv := State.controlInv_afterReset s.cfg (s.epoch + 1)

/-- R162: the sequencer's turn with nothing presented. -/
theorem step_row_nil {s : State} {i : Instr} (hi : s.inputs = []) (hf : s.fixup = false) (hd : decodeStep s.seq = .ok i) :
    step s = exec i s := by
  have e : { s with inputs := [] } = s := by rw [← hi]
  rw [step_row (.inl ⟨hi, rfl⟩) hf hd, e]

/-- The block's own turn from a state of the control invariant, whatever the outside still presents. -/
theorem State.ControlInv.turn {s : State} (h : s.ControlInv) :
    ∃ t, (if s.fixup then .next s.mapirqResume
      else match decodeStep s.seq with
        | .ok i => exec i s
        | .error _ => .fault .noStep : Host.Outcome State Fault Refusal) = .next t ∧ t.ControlInv ∧ t.inputs = s.inputs := by
  by_cases hf : s.fixup = true
  · exact ⟨_, if_pos hf, h.resume hf, by simp⟩
  · obtain ⟨i, hd⟩ := decodeStep_ok s.seq h.1
    rw [if_neg hf, hd]
    by_cases h0 : s.seq = 0
    · rw [h0] at hd
      obtain rfl : Instr.seqIdle = i := Except.ok.inj hd
      exact ⟨s, rfl, h, rfl⟩
    · obtain ⟨t, hx, ht⟩ := exec_row hd h0 s
      exact ⟨t, hx, h.row h0 hd hx ht, ht.inputs⟩

/-- Settles O10: each of the four things that a step can be. -/
theorem controlInvariantIsKept : Obligations.ControlInvariantIsKept := by
  intro s h hout
  have more : ∀ {x rest}, s.inputs = x :: rest → rest.all Input.fromOutside = true := fun hi => by
    simp_all [State.outsideOnly]
  rcases step_cases s hout with ⟨rest, hi, hs⟩ | ⟨w, rest, hit, addr, hi, hs⟩ | ⟨w, rest, hi, hb, hs⟩ | ⟨rest, -, hrest, hs⟩
  · exact ⟨_, hs, State.controlInv_hardwareReset _, more hi⟩
  · exact ⟨_, hs, h, more hi⟩
  · have taken : State.ControlInv { s with inputs := rest } := h
    refine ⟨_, hs.trans (exec_decodeCommand_free w hb), taken.command hb w, ?_⟩
    rw [State.outsideOnly, State.commanded_inputs]
    exact more hi
  · have taken : State.ControlInv { s with inputs := rest } := h
    obtain ⟨t, ht, kept, inputs⟩ := taken.turn
    refine ⟨t, hs.trans ht, kept, ?_⟩
    rw [State.outsideOnly, inputs]
    exact hrest

/-- A run begins with its first step. -/
theorem run_succ {s t : State} (h : step s = .next t) (k : Nat) : Sys2Proof.core.run (k + 1) s = Sys2Proof.core.run k t := by
  have first : Sys2Proof.core.step s = .next t := h
  simp only [Host.Core.run, first]

/-- R252: bring-up from any of its rows, with nothing presented, halts within the rows that are left. -/
theorem run_halts (n : Nat) {s : State} (h : s.ControlInv) (h0 : s.seq ≠ 0) (hi : s.inputs = []) (hn : stepsLeft s.seq ≤ n) :
    ∃ k t, k ≤ n ∧ Sys2Proof.core.run k s = .next t ∧ t.ControlInv ∧ t.seq = 0 ∧ t.attached = true ∧ t.Halted := by
  induction n generalizing s with
  | zero =>
    have positive : ∀ m : BitVec 6, m.toNat ≤ 38 → 0 < stepsLeft m := by decide
    exact absurd (positive s.seq h.1) (Nat.not_lt.mpr hn)
  | succ n ih =>
    obtain ⟨i, hd⟩ := decodeStep_ok s.seq h.1
    obtain ⟨t, hx, ht⟩ := exec_row hd h0 s
    obtain ⟨-, hfix, -, hatt, -⟩ := h.bringingUp h0
    have hs : step s = .next t := by rw [step_row_nil hi hfix hd, hx]
    have kept : t.ControlInv := h.row h0 hd hx ht
    by_cases hend : t.seq = 0
    · exact ⟨1, t, Nat.succ_pos n, run_succ hs 0, kept, hend, ht.attached.trans hatt, (ht.halted hend).1⟩
    · obtain ⟨-, -, closer⟩ := nextSteps_stage hd h0 ht.next hend
      obtain ⟨k, u, hk, run, ends⟩ := ih kept hend (ht.inputs.trans hi) (by omega)
      exact ⟨k + 1, u, Nat.succ_le_succ hk, (run_succ hs k).trans run, ends⟩

/-- Settles O18: at most 32 rows are left, and the halt is the result. -/
theorem attachRunsToATerminalState : Obligations.AttachRunsToATerminalState := by
  intro s h h0 hi
  have bound : ∀ m : BitVec 6, m ≠ 0 → stepsLeft m ≤ 32 := by decide
  obtain ⟨k, t, hk, run, ⟨-, -, -, -, -, hreg⟩, hseq, hatt, busy, o, hres, ends⟩ := run_halts 32 h h0 hi (bound s.seq h0)
  obtain ⟨flag, zeros, outcome⟩ := attachAux_fields t.calFail o
  refine ⟨k, t, hk, run, hseq, busy, hatt, ends.imp And.right And.right, hreg, ?_⟩
  simp only [hres, flag, zeros, outcome]
  rcases ends with ⟨rfl, ls⟩ | ⟨rfl | rfl, ls⟩ <;> simp [ls, statusOk]

end Sys2Proof.Machine
end

section
/-! PROOF. What each row writes to the registers of the bring-up stages (State.RowRegs), how the stages follow one another, and the statement
O14. -/

namespace Sys2Proof.Machine

/-- R196: a cleared bit reads 0. -/
theorem cleared_and (v m : Word) : v &&& ~~~m &&& m = 0 := by
  rw [BitVec.and_assoc, BitVec.and_comm (~~~m), BitVec.and_not_self]
  exact BitVec.and_zero

/-- R196: a set bit reads 1. -/
theorem set_and (v m : Word) : (v ||| m) &&& m = m := by
  ext
  simp +contextual

/-- R222: CALIBRATE writes no register of the subsystem window. -/
theorem State.calibrate_ss {s : State} (h : s.cfg.Wf) (a d : Byte) : (s.calibrate a d).ss = s.ss := by
  obtain ⟨t, vs, v, run, -, ends⟩ := calibrateWaitsWritesWaits s a d h
  obtain rfl : s.calibrate a d = t := Host.Outcome.next.inj run
  rcases ends with ⟨-, ht⟩ | ⟨-, ws, w, idle, -, -, ht⟩
  · rw [ht]; rfl
  · rw [ht]; rfl

/-- R243 to R250, R280: what the row at step `n` writes to the registers of the bring-up stages. -/
structure State.RowRegs (n : BitVec 6) (s t : State) : Prop where
  cfg : t.cfg = s.cfg
  rstOut : t.rstOut = if n ∈ [3, 13, 17, 26] then true else if n ∈ [9, 22] then false else s.rstOut
  clkcfg1 : t.sc.clkcfg1 =
    if n ∈ [4, 14, 27] then s.sc.clkcfg1 &&& ~~~s.cfg.mPcieClkEn
    else if n = 10 then s.sc.clkcfg1 ||| s.cfg.mPcieClkEn
    else s.sc.clkcfg1
  syscfg1 : t.sc.syscfg1 =
    if n ∈ [2, 23] then s.sc.syscfg1 &&& ~~~s.cfg.mHostsel
    else if n = 18 then (s.sc.syscfg1 &&& ~~~s.cfg.slotcfgClr) ||| s.cfg.slotcfgSet
    else s.sc.syscfg1
  membase : t.br.membase = if n.toNat = 30 then s.cfg.membaseSentinel else s.br.membase
  iobase : t.br.iobase = if n.toNat = 31 then s.cfg.ioWinBase else s.br.iobase
  bar0setup : t.ss.bar0setup = if n.toNat = 32 then s.cfg.bar0Mask2g else s.ss.bar0setup
  imbasebar0 : t.ss.imbasebar0 = if n.toNat = 33 then s.cfg.hostMemBase else s.ss.imbasebar0
  id : t.ss.id = if n.toNat = 34 then s.cfg.idWord else s.ss.id
  cls : t.ss.cls = if n.toNat = 35 then s.cfg.classWord else s.ss.cls
  subid : t.ss.subid = if n.toNat = 36 then s.cfg.subidWord else s.ss.subid
  pcimsk : t.br.pcimsk = if n.toNat = 37 then s.br.pcimsk ||| s.cfg.mPcimskLegacy else s.br.pcimsk

theorem exec_rowRegs {n : BitVec 6} {i : Instr} {s t : State} (h : s.cfg.Wf) (hd : decodeStep n = .ok i) (hx : exec i s = .next t) :
    State.RowRegs n s t := by
  have hn := encode_decodeStep hd
  have early := bringupRows1To5And9To11 s h
  have middle := bringupRows15To24 s h
  have down := disableRows13And14And26To29 s h
  have windows := windowRows30To37 s h
  cases i with
  | seq01 | seq02 | seq03 | seq04 | seq05 | seq09 | seq10 | seq11 =>
    cases hn
    simp only [early] at hx
    cases hx
    constructor <;> rfl
  | seq15 | seq16 | seq17 | seq18 | seq19 | seq20 | seq21 | seq22 | seq23 | seq24 =>
    cases hn
    simp only [middle] at hx
    cases hx
    constructor <;> rfl
  | seq13 | seq14 | seq26 | seq27 | seq28 | seq29 =>
    cases hn
    simp only [down] at hx
    cases hx
    constructor <;> rfl
  | seq30 | seq31 | seq32 | seq33 | seq34 | seq35 | seq36 | seq37 =>
    cases hn
    simp only [windows] at hx
    cases hx
    constructor <;> rfl
  | seq06 | seq07 | seq08 =>
    cases hn
    cases hx
    constructor <;> simp [State.calibrate_ss h]
  | seq12 | seq25 =>
    cases hn
    have sampled := Host.Outcome.next.inj hx
    split at sampled <;> cases sampled <;> constructor <;> rfl
  | seqIdle | seq38 =>
    cases hn
    cases hx
    constructor <;> rfl
  | _ => cases hn

/-- The step index lies from `lo` to `hi`. -/
abbrev stepIn (n : BitVec 6) (lo hi : Nat) : Prop := lo ≤ n.toNat ∧ n.toNat ≤ hi

/-- A fact about every row of the table, the step that it leads to, and the Link State before and after, holds of a step of the sequencer. -/
theorem State.ControlInv.row_table {Q : BitVec 6 → LinkState → BitVec 6 → LinkState → Prop}
    (table : ∀ n, n ≠ 0 → ∀ i ∈ (decodeStep n).toOption, ∀ m ∈ nextSteps n, Q n (lsDuring n) m (lsAfter i (lsDuring n)))
    {s t : State} {i : Instr} (h : s.ControlInv) (h0 : s.seq ≠ 0) (hd : decodeStep s.seq = .ok i) (hx : exec i s = .next t)
    (ht : State.RowControl s.seq s t) : Q s.seq s.ls t.seq t.ls := by
  obtain ⟨-, -, hls, -⟩ := h.bringingUp h0
  rw [exec_ls hx, hls]
  exact table s.seq h0 i (by rw [hd]; rfl) t.seq ht.next

/-- R420: where the reset line is asserted. -/
abbrev resetHeld (n : BitVec 6) (l : LinkState) : Prop :=
  stepIn n 4 9 ∨ stepIn n 14 14 ∨ stepIn n 18 22 ∨ stepIn n 27 29 ∨ l = .disabled

/-- R420: where the reset line is released. -/
abbrev resetFree (n : BitVec 6) (l : LinkState) : Prop :=
  stepIn n 10 13 ∨ stepIn n 15 17 ∨ stepIn n 23 26 ∨ stepIn n 30 38 ∨ l = .up

/-- R244, R420: where the port clock is off. -/
abbrev clockOff (n : BitVec 6) (l : LinkState) : Prop := stepIn n 5 10 ∨ stepIn n 28 29 ∨ l = .disabled

/-- R246, R420: where the port clock is on. -/
abbrev clockOn (n : BitVec 6) (l : LinkState) : Prop := stepIn n 11 27 ∨ stepIn n 30 38 ∨ l = .up

/-- R244, R248: where the host-mode select is clear. -/
abbrev hostselOff (n : BitVec 6) (l : LinkState) : Prop := stepIn n 3 18 ∨ stepIn n 24 38 ∨ l = .up ∨ l = .disabled

/-- R280: where the register that row `lo - 1` writes holds its value. -/
abbrev windowSet (lo : Nat) (n : BitVec 6) (l : LinkState) : Prop := stepIn n lo 38 ∨ l = .up

section
variable {s t : State} {i : Instr} (h : s.ControlInv) (h0 : s.seq ≠ 0) (hd : decodeStep s.seq = .ok i) (hx : exec i s = .next t)
  (ht : State.RowControl s.seq s t)
include h h0 hd hx ht

/-- R280: the register that row `k` of WINCFG writes holds its value from the next row on and in UP. -/
theorem window_row {k : Nat} (hk : k ∈ [30, 31, 32, 33, 34, 35, 36, 37]) {P : Word → Prop} {new written old : Word}
    (hnew : new = if s.seq.toNat = k then written else old) (hw : P written) (hold : stepIn s.seq (k + 1) 38 → P old)
    (now : windowSet (k + 1) t.seq t.ls) : P new := by
  have table : ∀ n, n ≠ 0 → ∀ i ∈ (decodeStep n).toOption, ∀ m ∈ nextSteps n, ∀ k ∈ [30, 31, 32, 33, 34, 35, 36, 37],
    windowSet (k + 1) m (lsAfter i (lsDuring n)) → n.toNat = k ∨ (n.toNat ≠ k ∧ stepIn n (k + 1) 38) := by decide
  rcases h.row_table (Q := fun n _ m l' => ∀ k ∈ [30, 31, 32, 33, 34, 35, 36, 37],
      windowSet (k + 1) m l' → n.toNat = k ∨ (n.toNat ≠ k ∧ stepIn n (k + 1) 38)) table h0 hd hx ht k hk now with writes | ⟨keeps, was⟩
  · rw [hnew, if_pos writes]
    exact hw
  · rw [hnew, if_neg keeps]
    exact hold was

variable (regs : State.RowRegs s.seq s t)
include regs

/-- R420: a row that leads to where the line is asserted asserts it, or leaves it asserted; and the same of a released line. -/
theorem resetLine_row (hs : s.ResetLineInv) : t.ResetLineInv := by
  constructor
  · intro held
    rcases h.row_table (Q := fun n l m l' => resetHeld m l' → n ∈ [3, 13, 17, 26] ∨ (n ∉ [3, 13, 17, 26] ∧ n ∉ [9, 22] ∧ resetHeld n l))
      (by decide) h0 hd hx ht held with asserts | ⟨no, keeps, was⟩
    · rw [regs.rstOut, if_pos asserts]
    · rw [regs.rstOut, if_neg no, if_neg keeps, hs.1 was]
  · intro free
    rcases h.row_table (Q := fun n l m l' => resetFree m l' → n ∉ [3, 13, 17, 26] ∧ (n ∈ [9, 22] ∨ (n ∉ [9, 22] ∧ resetFree n l)))
      (by decide) h0 hd hx ht free with ⟨no, releases | ⟨keeps, was⟩⟩
    · rw [regs.rstOut, if_neg no, if_pos releases]
    · rw [regs.rstOut, if_neg no, if_neg keeps, hs.2 was]

/-- R244, R246, R420: the port clock and the host-mode select. -/
theorem clock_row (hs : s.ClockInv) : t.ClockInv := by
  obtain ⟨hoff, hon, hsel⟩ := hs
  refine ⟨fun off => ?_, fun on => ?_, fun sel => ?_⟩
  · rcases h.row_table (Q := fun n l m l' => clockOff m l' → n ∈ [4, 14, 27] ∨ (n ∉ [4, 14, 27] ∧ n ≠ 10 ∧ clockOff n l))
      (by decide) h0 hd hx ht off with clears | ⟨no, keeps, was⟩
    · rw [regs.cfg, regs.clkcfg1, if_pos clears, cleared_and]
    · rw [regs.cfg, regs.clkcfg1, if_neg no, if_neg keeps, hoff was]
  · rcases h.row_table (Q := fun n l m l' => clockOn m l' → n ∉ [4, 14, 27] ∧ (n = 10 ∨ (n ≠ 10 ∧ clockOn n l)))
      (by decide) h0 hd hx ht on with ⟨no, sets | ⟨keeps, was⟩⟩
    · rw [regs.cfg, regs.clkcfg1, if_neg no, if_pos sets, set_and]
    · rw [regs.cfg, regs.clkcfg1, if_neg no, if_neg keeps, hon was]
  · rcases h.row_table (Q := fun n l m l' => hostselOff m l' → n ∈ [2, 23] ∨ (n ∉ [2, 23] ∧ n ≠ 18 ∧ hostselOff n l))
      (by decide) h0 hd hx ht sel with clears | ⟨no, keeps, was⟩
    · rw [regs.cfg, regs.syscfg1, if_pos clears, cleared_and]
    · rw [regs.cfg, regs.syscfg1, if_neg no, if_neg keeps, hsel was]

/-- R280 to R287: the windows, one register a row. -/
theorem windowInv_row (hs : s.WindowInv) : t.WindowInv := by
  obtain ⟨-, hfix, -⟩ := h.bringingUp h0
  obtain ⟨membase, iobase, bar0, imbase, -, -, id, cls, subid, mask⟩ := hs
  have holds := @window_row s t i h h0 hd hx ht
  have closed : windowSet 33 t.seq t.ls → t.ss.bar0setup = s.cfg.bar0Mask2g :=
    holds (k := 32) (by decide) (P := (· = s.cfg.bar0Mask2g)) regs.bar0setup rfl bar0
  have target : windowSet 34 t.seq t.ls → t.ss.imbasebar0 = s.cfg.hostMemBase :=
    holds (k := 33) (by decide) (P := (· = s.cfg.hostMemBase)) regs.imbasebar0 rfl imbase
  rw [State.WindowInv, regs.cfg]
  refine ⟨?_, ?_, fun now => closed (.inl now), fun now => target (.inl now), fun up _ => .inl ⟨closed (.inr up), target (.inr up)⟩,
    fun f => absurd (ht.fixup.symm.trans f) (by simp [hfix]), ?_, ?_, ?_, ?_⟩
  · exact holds (k := 30) (by decide) (P := (· = s.cfg.membaseSentinel)) regs.membase rfl (membase ∘ .inl)
  · exact holds (k := 31) (by decide) (P := (· = s.cfg.ioWinBase)) regs.iobase rfl (iobase ∘ .inl)
  · exact holds (k := 34) (by decide) (P := (· = s.cfg.idWord)) regs.id rfl (id ∘ .inl)
  · exact holds (k := 35) (by decide) (P := (· = s.cfg.classWord)) regs.cls rfl (cls ∘ .inl)
  · exact holds (k := 36) (by decide) (P := (· = s.cfg.subidWord)) regs.subid rfl (subid ∘ .inl)
  · exact holds (k := 37) (by decide) (P := fun p => p &&& s.cfg.mPcimskLegacy = s.cfg.mPcimskLegacy) regs.pcimsk (set_and _ _)
      (mask ∘ .inl)

theorem bringupInv_row (hs : s.BringupInv) : t.BringupInv :=
  ⟨resetLine_row h h0 hd hx ht regs hs.1, clock_row h h0 hd hx ht regs hs.2.1, windowInv_row h h0 hd hx ht regs hs.2.2⟩

end

/-- R41, R310: of the bridge registers only CFGADDR may have moved. -/
structure State.SelectsOnly (s t : State) : Prop where
  cfg : t.cfg = s.cfg
  br : ∃ a, t.br = { s.br with cfgaddr := a }

namespace State.SelectsOnly

theorem frame {s t : State} (hb : t.br = s.br := by simp) (hc : t.cfg = s.cfg := by simp) : s.SelectsOnly t :=
  ⟨hc, s.br.cfgaddr, hb⟩

theorem trans {s t u : State} (h : s.SelectsOnly t) (k : t.SelectsOnly u) : s.SelectsOnly u := by
  obtain ⟨a, ha⟩ := h.br
  obtain ⟨b, hb⟩ := k.br
  exact ⟨k.cfg.trans h.cfg, b, by rw [hb, ha]⟩

theorem cfgRead {s t : State} (h : s.SelectsOnly t) (wf : s.cfg.Wf) (w : Width) (bus devfn : Byte) (off : BitVec 12) :
    s.SelectsOnly (t.cfgRead w bus devfn off) :=
  h.trans ⟨by simp, _, by rw [State.cfgRead_eq (h.cfg ▸ wf) rfl]⟩

theorem cfgWrite {s t : State} (h : s.SelectsOnly t) (wf : s.cfg.Wf) (w : Width) (bus devfn : Byte) (off : BitVec 12) (v : Word) :
    s.SelectsOnly (t.cfgWrite w bus devfn off v) := by
  refine h.trans ⟨by simp, token t.cfg bus devfn off, ?_⟩
  by_cases hw : w = .dword
  · rw [hw, State.cfgWrite_dword (h.cfg ▸ wf) rfl]
  · rw [State.cfgWrite_narrow (h.cfg ▸ wf) rfl w hw]

theorem complete {s t : State} (h : s.SelectsOnly t) (status aux : Byte) (rdata : Word) : s.SelectsOnly (t.complete status aux rdata) :=
  h.trans (frame rfl rfl)

theorem housekeep {s t : State} (h : s.SelectsOnly t) (wf : s.cfg.Wf) (bus devfn irq : Byte) :
    s.SelectsOnly (t.housekeep bus devfn irq) := by
  have read : ∀ {u : State}, s.SelectsOnly u → s.SelectsOnly (u.readCommand bus devfn) := fun hu =>
    (hu.cfgRead wf .half bus devfn _).trans (frame rfl rfl)
  unfold State.housekeep
  exact ((read ((h.cfgWrite wf ..).cfgWrite wf ..)).cfgWrite wf ..).cfgWrite wf ..

theorem mapirqFinish {s t : State} (h : s.SelectsOnly t) (wf : s.cfg.Wf) (bus : Byte) (slot : BitVec 5) (irq : Byte) :
    s.SelectsOnly (t.mapirqFinish bus slot irq) := by
  have resolved : s.SelectsOnly (t.setIrq irq) := h.trans (frame rfl rfl)
  unfold State.mapirqFinish
  split
  · exact (resolved.housekeep wf ..).complete ..
  · exact resolved.complete ..

theorem mapirqBody {s : State} (wf : s.cfg.Wf) (bus : Byte) (slot : BitVec 5) : s.SelectsOnly (s.mapirqBody bus slot) := by
  unfold State.mapirqBody
  split
  · exact frame rfl rfl
  · unfold State.mapirqRun
    split
    · exact frame rfl rfl
    · split
      · exact mapirqFinish (frame rfl rfl) wf ..
      · have logged : s.SelectsOnly (s.logUnexpected bus slot) := frame rfl rfl
        exact logged.mapirqFinish wf ..

theorem cfgrdBody {s : State} (wf : s.cfg.Wf) (w : Width) (bus devfn : Byte) (off : BitVec 12) :
    s.SelectsOnly (s.cfgrdBody w bus devfn off) := by
  unfold State.cfgrdBody
  split
  · exact frame rfl rfl
  · exact (cfgRead (frame rfl rfl) wf ..).complete ..

theorem cfgwrBody {s : State} (wf : s.cfg.Wf) (w : Width) (bus devfn : Byte) (off : BitVec 12) (v : Word) :
    s.SelectsOnly (s.cfgwrBody w bus devfn off v) := by
  unfold State.cfgwrBody
  split
  · exact frame rfl rfl
  · exact (cfgWrite (frame rfl rfl) wf ..).complete ..

theorem commanded {s : State} (wf : s.cfg.Wf) (w : BitVec 64) : s.SelectsOnly (s.commanded w) := by
  have accepted : s.SelectsOnly (s.accepted w) := frame rfl rfl
  have wf : (s.accepted w).cfg.Wf := wf
  exact accepted.trans (State.commandBody_forms (s.accepted w) _ _ _ _ _ (P := (s.accepted w).SelectsOnly) frame (mapirqBody wf _ _)
    (fun wd => cfgrdBody wf wd _ _ _) (fun wd => cfgwrBody wf wd _ _ _ _) (frame rfl rfl))

end State.SelectsOnly

/-- The stages look at the step index, the Link State, the pause of MAPIRQ(0,0) and the registers of bring-up, and not at CFGADDR. -/
theorem State.BringupInv.congr {s t : State} (h : s.BringupInv) (seq : t.seq = s.seq) (ls : t.ls = s.ls)
    (fixup : t.fixup = s.fixup) (rstOut : t.rstOut = s.rstOut) (sc : t.sc = s.sc) (ss : t.ss = s.ss) (br : s.SelectsOnly t) :
    t.BringupInv := by
  obtain ⟨cfg, a, br⟩ := br
  simpa only [State.BringupInv, State.ResetLineInv, State.ClockInv, State.WindowInv, State.seqIn, cfg, seq, ls, fixup, rstOut, sc, ss,
    br] using h

/-- R341, R292: MAPIRQ(0,0) leaves the inbound BAR open: with either target while it pauses, with target 0 after it. -/
theorem State.BringupInv.openBar {s t : State} (h : s.BringupInv) (hseq : s.seq = 0) (hup : s.ls = .up) (seq : t.seq = 0)
    (up : t.ls = .up) (rstOut : t.rstOut = s.rstOut) (sc : t.sc = s.sc) (br : s.SelectsOnly t) (base : Word)
    (ss : t.ss = { s.ss with bar0setup := s.cfg.bar0Mask2g ||| s.cfg.bar0En, imbasebar0 := base })
    (target : base = 0 ∨ (t.fixup = true ∧ base = s.cfg.hostMemBase)) : t.BringupInv := by
  obtain ⟨cfg, a, br⟩ := br
  have idle : ∀ {u : State} {lo hi : Nat}, u.seq = 0 → 0 < lo → ¬ u.seqIn lo hi := State.not_seqIn_of_idle
  simp [State.BringupInv, State.ResetLineInv, State.ClockInv, State.WindowInv, idle, hseq, hup] at h
  rcases target with rfl | ⟨paused, rfl⟩
  · simp [State.BringupInv, State.ResetLineInv, State.ClockInv, State.WindowInv, idle, seq, up, rstOut, sc, cfg, br, ss, h]
  · simp [State.BringupInv, State.ResetLineInv, State.ClockInv, State.WindowInv, idle, seq, up, rstOut, sc, cfg, br, ss, h, paused]

/-- R17 (e), R292: with the inbound BAR open its setup word is not the closed one. -/
theorem bar0_open_ne_closed {c : Cfg} (h : c.Wf) : c.bar0Mask2g ||| c.bar0En ≠ c.bar0Mask2g := by
  obtain ⟨-, -, ⟨-, -, ⟨enable, -⟩, apart, -⟩, -⟩ := h
  intro same
  have bit := set_and c.bar0Mask2g c.bar0En
  rw [same, BitVec.and_comm, apart] at bit
  exact enable bit.symm

/-- R292: in UP, outside a MAPIRQ(0,0), the inbound window has one of two targets. -/
theorem State.BringupInv.target_up {s : State} (h : s.BringupInv) (up : s.ls = .up) (hf : s.fixup = false) :
    s.ss.imbasebar0 = 0 ∨ s.ss.imbasebar0 = s.cfg.hostMemBase := by
  obtain ⟨-, -, -, -, -, -, bar, -⟩ := h
  rcases bar up hf with ⟨-, host⟩ | ⟨-, zero⟩
  · exact .inr host
  · exact .inl zero

/-- R292, R341: inside a MAPIRQ(0,0) the inbound BAR is open. -/
theorem State.BringupInv.bar_paused {s : State} (h : s.BringupInv) (hf : s.fixup = true) :
    s.ss.bar0setup = s.cfg.bar0Mask2g ||| s.cfg.bar0En := by
  obtain ⟨-, -, -, -, -, -, -, bar, -⟩ := h
  exact (bar hf).1

/-- R151: a command on a free port keeps the stages. -/
theorem State.BringupInv.command {s : State} (h : s.BringupInv) (wf : s.cfg.Wf) (ctl : s.ControlInv) (hb : s.busy = false)
    (w : BitVec 64) : (s.commanded w).BringupInv := by
  obtain ⟨hseq, hfix⟩ := ctl.idle hb
  obtain ⟨-, -, -, -, hidle, -⟩ := ctl
  have selects := State.SelectsOnly.commanded wf w
  rcases s.commanded_cases w with ans | ⟨ha, e⟩ | ⟨-, -, -, up, e⟩
  · exact h.congr ans.seq ans.ls ans.fixup ans.rstOut ans.sc ans.ss selects
  · have ls : s.ls = .reset := by simpa [ha] using hidle hseq
    rw [e]
    simp [State.BringupInv, State.ResetLineInv, State.ClockInv, State.WindowInv, State.seqIn, ls, hfix]
  · rw [State.openInbound_eq (s := s.accepted w) wf rfl] at e
    exact h.openBar hseq up (by rw [e]; exact hseq) (by rw [e]; exact up) (by rw [e]; rfl) (by rw [e]; rfl) selects s.ss.imbasebar0
      (by rw [e]; rfl) ((h.target_up up hfix).imp_right fun host => ⟨by rw [e], host⟩)

/-- R341: the rest of a MAPIRQ(0,0) keeps the stages. -/
theorem State.BringupInv.resume {s : State} (h : s.BringupInv) (wf : s.cfg.Wf) (ctl : s.ControlInv) (hf : s.fixup = true) :
    s.mapirqResume.BringupInv := by
  obtain ⟨-, -, hfix, -⟩ := ctl
  obtain ⟨hseq, up⟩ := hfix hf
  have selects : s.SelectsOnly s.mapirqResume :=
    ((State.SelectsOnly.frame (s := s) (t := s.zeroBase)).mapirqFinish wf 0 0 0).trans (.frame rfl rfl)
  have opened : s.ss.bar0setup = s.cfg.bar0Mask2g ||| s.cfg.bar0En := h.bar_paused hf
  refine h.openBar hseq up (by simp [hseq]) (by simp [up]) (by simp) (by simp) selects 0 ?_ (.inl rfl)
  simp [State.zeroBase_eq wf rfl, ← opened]

/-- Settles O14: the rows by the table of their writes, a command and the rest of MAPIRQ(0,0) by what they leave of the registers. -/
theorem bringupStagesAreKept : Obligations.BringupStagesAreKept := by
  intro s t wf ctl hs hout h
  rcases step_cases s hout with ⟨rest, hi, e⟩ | ⟨w, rest, hit, addr, hi, e⟩ | ⟨w, rest, hi, hb, e⟩ | ⟨rest, -, -, e⟩
  · obtain rfl := Host.Outcome.next.inj (e.symm.trans h)
    exact ⟨State.bringupInv_of_reset rfl rfl rfl, fun _ _ hr => by simp [State.notResetting, hi] at hr⟩
  · obtain rfl := Host.Outcome.next.inj (e.symm.trans h)
    exact ⟨hs, fun _ closed _ _ => closed⟩
  · have taken : State.BringupInv { s with inputs := rest } := hs
    obtain rfl := Host.Outcome.next.inj ((e.trans (exec_decodeCommand_free w hb)).symm.trans h)
    refine ⟨taken.command wf ctl hb w, fun _ closed _ other => ?_⟩
    rcases State.commanded_cases { s with inputs := rest } w with ans | ⟨-, e⟩ | ⟨op, bus, slot, -, -⟩
    · rw [ans.ss]
      exact closed
    · rw [e]
      exact closed
    · simp [State.acceptsRootMapirq, hi, hb, op, bus, slot] at other
  · have taken : State.BringupInv { s with inputs := rest } := hs
    rw [e] at h
    by_cases hf : s.fixup = true
    · obtain rfl := Host.Outcome.next.inj ((if_pos hf).symm.trans h)
      refine ⟨taken.resume wf ctl hf, fun _ closed _ _ => ?_⟩
      exact absurd ((hs.bar_paused hf).symm.trans closed) (bar0_open_ne_closed wf)
    · obtain ⟨i, hd⟩ := decodeStep_ok s.seq ctl.1
      rw [if_neg hf, hd] at h
      by_cases h0 : s.seq = 0
      · rw [h0] at hd
        obtain rfl : Instr.seqIdle = i := Except.ok.inj hd
        obtain rfl := Host.Outcome.next.inj h
        exact ⟨hs, fun _ closed _ _ => closed⟩
      · have taken_ctl : State.ControlInv { s with inputs := rest } := ctl
        obtain ⟨u, hu, ht⟩ := exec_row hd h0 { s with inputs := rest }
        obtain rfl := Host.Outcome.next.inj (hu.symm.trans h)
        refine ⟨bringupInv_row taken_ctl h0 hd hu ht (exec_rowRegs wf hd hu) taken, fun up => ?_⟩
        obtain ⟨-, -, hls, -⟩ := ctl.bringingUp h0
        exact absurd (hls.symm.trans up) (lsDuring_ne_up _)

end Sys2Proof.Machine
end

section
/-! PROOF. Bring-up run row by row with the requests counted (State.Brings), and the statements O19, O20 and O21. -/

namespace Sys2Proof.Machine

/-- A run in two parts. -/
theorem run_trans {s t u : State} {j k : Nat} (first : Sys2Proof.core.run j s = .next t) (second : Sys2Proof.core.run k t = .next u) :
    Sys2Proof.core.run (j + k) s = .next u := by
  induction j generalizing s with
  | zero =>
    cases first
    rwa [Nat.zero_add]
  | succ j ih =>
    rw [Nat.succ_add]
    simp only [Host.Core.run] at first ⊢
    split at first
    · exact ih first
    · cases first
    · cases first

/-- R252: bring-up stands at row `n`, its control state and its registers as they should be, and nothing is presented. -/
structure State.Running (s : State) (n : BitVec 6) : Prop where
  wf : s.cfg.Wf
  control : s.ControlInv
  stages : s.BringupInv
  inputs : s.inputs = []
  seq : s.seq = n

/-- R242: the first row asks nothing of the registers. -/
theorem State.Running.first {s : State} (wf : s.cfg.Wf) (control : s.ControlInv) (hseq : s.seq = 1) (inputs : s.inputs = []) :
    s.Running 1 := by
  obtain ⟨-, fixup, ls, -⟩ := control.bringingUp (by simp [hseq])
  have reset : s.ls = .reset := by rw [ls, hseq]; rfl
  refine ⟨wf, control, ?_, inputs, hseq⟩
  simp [State.BringupInv, State.ResetLineInv, State.ClockInv, State.WindowInv, State.seqIn, reset, hseq, fixup]

/-- R255: `k` rows lead from `s` to row `m` in `t`: the requests `es`, the PHY writes `ws` and the conditions `cs`, with `rest` left of the
answers, and no window or identification register written. -/
structure State.Brings (s t : State) (k : Nat) (m : BitVec 6) (es : List Event) (rest : List Word) (ws : List PhyReq)
    (cs : List Condition) : Prop where
  run : Sys2Proof.core.run k s = .next t
  running : t.Running m
  cfg : t.cfg = s.cfg
  calFail : t.calFail = s.calFail
  br : t.br = s.br
  ss : t.ss = s.ss
  hist : t.hist = s.hist ++ es
  draws : t.draws = rest
  phyLog : t.phyLog = s.phyLog ++ ws
  raised : t.raised = s.raised ++ cs

/-- R243: one row, and with it the invariants. -/
theorem State.Running.row {s t : State} {n : BitVec 6} {i : Instr} {es : List Event} {rest : List Word} {ws : List PhyReq}
    {cs : List Condition} (h : s.Running n) (hx : exec i s = .next t) (hist : t.hist = s.hist ++ es) (draws : t.draws = rest)
    (phyLog : t.phyLog = s.phyLog ++ ws) (raised : t.raised = s.raised ++ cs) (cfg : t.cfg = s.cfg) (calFail : t.calFail = s.calFail)
    (br : t.br = s.br) (ss : t.ss = s.ss) (hd : decodeStep n = .ok i := by rfl) (h0 : n ≠ 0 := by decide) :
    s.Brings t 1 t.seq es rest ws cs := by
  obtain ⟨wf, control, stages, inputs, rfl⟩ := h
  obtain ⟨-, fixup, -⟩ := control.bringingUp h0
  obtain ⟨u, hu, ht⟩ := exec_row hd h0 s
  obtain rfl := Host.Outcome.next.inj (hu.symm.trans hx)
  exact ⟨run_succ ((step_row_nil inputs fixup hd).trans hx) 0,
    ⟨cfg ▸ wf, control.row h0 hd hx ht, bringupInv_row control h0 hd hx ht (exec_rowRegs wf hd hx) stages, ht.inputs.trans inputs, rfl⟩,
    cfg, calFail, br, ss, hist, draws, phyLog, raised⟩

/-- A row that takes no answer and issues one request. -/
theorem State.Running.request {s t : State} {n : BitVec 6} {i : Instr} (h : s.Running n) (hx : exec i s = .next t) (e : Event)
    (hist : t.hist = s.hist ++ [e] := by rfl) (draws : t.draws = s.draws := by rfl) (phyLog : t.phyLog = s.phyLog := by rfl)
    (raised : t.raised = s.raised := by rfl) (cfg : t.cfg = s.cfg := by rfl) (calFail : t.calFail = s.calFail := by rfl)
    (br : t.br = s.br := by rfl) (ss : t.ss = s.ss := by rfl) (hd : decodeStep n = .ok i := by rfl) (h0 : n ≠ 0 := by decide) :
    s.Brings t 1 t.seq [e] s.draws [] [] :=
  h.row hx hist draws (by simp [phyLog]) (by simp [raised]) cfg calFail br ss hd h0

/-- Rows after rows. -/
theorem State.Brings.trans {s t u : State} {j k : Nat} {m p : BitVec 6} {es fs : List Event} {rest left : List Word} {ws xs : List PhyReq}
    {cs ds : List Condition} (first : s.Brings t j m es rest ws cs) (second : t.Brings u k p fs left xs ds) :
    s.Brings u (j + k) p (es ++ fs) left (ws ++ xs) (cs ++ ds) where
  run := run_trans first.run second.run
  running := second.running
  cfg := second.cfg.trans first.cfg
  calFail := second.calFail.trans first.calFail
  br := second.br.trans first.br
  ss := second.ss.trans first.ss
  hist := by rw [second.hist, first.hist, List.append_assoc]
  draws := second.draws
  phyLog := by rw [second.phyLog, first.phyLog, List.append_assoc]
  raised := by rw [second.raised, first.raised, List.append_assoc]

/-- R243: the `k` rows from row `n` to row `m` take no answer and issue the requests `es`. -/
def Stretch (k : Nat) (n m : BitVec 6) (es : Cfg → List Event) : Prop :=
  ∀ s : State, s.Running n → ∃ t, s.Brings t k m (es s.cfg) s.draws [] []

/-- One row, one request. -/
theorem Stretch.row {n m : BitVec 6} (e : Cfg → Event) (f : State → State)
    (request : ∀ s : State, s.Running n → s.Brings ((f s).goto m) 1 m [e s.cfg] s.draws [] [] := by
      exact fun _ h => h.request rfl _) : Stretch 1 n m fun c => [e c] :=
  fun s h => ⟨_, request s h⟩

theorem Stretch.trans {j k : Nat} {n m p : BitVec 6} {es fs : Cfg → List Event} (first : Stretch j n m es) (second : Stretch k m p fs) :
    Stretch (j + k) n p fun c => es c ++ fs c := by
  intro s h
  obtain ⟨t, ht⟩ := first s h
  obtain ⟨u, hu⟩ := second t ht.running
  exact ⟨u, by simpa [ht.cfg, ht.draws] using ht.trans hu⟩

/-- R244: rows 1 to 5. -/
theorem prologue_stretch : Stretch 5 1 6 prologueEvents :=
  ((((Stretch.row (m := 2) (fun c => .scMod c.offGpiomode c.mGpiomuxRsv 0) fun s => s.scMod32 s.cfg.offGpiomode s.cfg.mGpiomuxRsv 0).trans
    (.row (m := 3) (fun c => .scMod c.offSyscfg1 c.mHostsel 0) fun s => s.scMod32 s.cfg.offSyscfg1 s.cfg.mHostsel 0)).trans
    (.row (m := 4) (fun _ => .rstAssert) (·.rstAssert))).trans
    (.row (m := 5) (fun c => .scMod c.offClkcfg1 c.mPcieClkEn 0) fun s => s.scMod32 s.cfg.offClkcfg1 s.cfg.mPcieClkEn 0)).trans
    (.row (fun c => .scMod c.offPplldrv c.plldrvAClr c.plldrvASet) fun s =>
      (s.scMod32 s.cfg.offPplldrv s.cfg.plldrvAClr s.cfg.plldrvASet).setLs .calibrating)

/-- R246: rows 9 to 11. -/
theorem clockOn_stretch : Stretch 3 9 12 clockOnEvents :=
  ((Stretch.row (m := 10) (fun _ => .rstDeassert) (·.rstDeassert)).trans
    (.row (m := 11) (fun c => .scMod c.offClkcfg1 0 c.mPcieClkEn) fun s => s.scMod32 s.cfg.offClkcfg1 0 s.cfg.mPcieClkEn)).trans
    (.row (fun c => .delay c.tClkon) fun s => (s.delay s.cfg.tClkon).setLs .pllWait)

/-- R248: rows 15 to 24. -/
theorem locked_stretch : Stretch 10 15 25 lockedEvents :=
  (((((((((Stretch.row (m := 16) (fun c => .scMod c.offPplldrv c.plldrvBClr c.plldrvBSet) fun s =>
      s.scMod32 s.cfg.offPplldrv s.cfg.plldrvBClr s.cfg.plldrvBSet).trans
    (.row (m := 17) (fun c => .delay c.tPlldrv) fun s => s.delay s.cfg.tPlldrv)).trans
    (.row (m := 18) (fun _ => .rstAssert) (·.rstAssert))).trans
    (.row (m := 19) (fun c => .scMod c.offSyscfg1 c.slotcfgClr c.slotcfgSet) fun s =>
      s.scMod32 s.cfg.offSyscfg1 s.cfg.slotcfgClr s.cfg.slotcfgSet)).trans
    (.row (m := 20) (fun c => .scMod c.offClkgen0 c.clkgen0Clr c.clkgen0Set) fun s =>
      s.scMod32 s.cfg.offClkgen0 s.cfg.clkgen0Clr s.cfg.clkgen0Set)).trans
    (.row (m := 21) (fun c => .scMod c.offClkgen1 c.clkgen1Clr c.clkgen1Set) fun s =>
      s.scMod32 s.cfg.offClkgen1 s.cfg.clkgen1Clr s.cfg.clkgen1Set)).trans
    (.row (m := 22) (fun c => .delay c.tClkgen) fun s => s.delay s.cfg.tClkgen)).trans
    (.row (m := 23) (fun _ => .rstDeassert) (·.rstDeassert))).trans
    (.row (m := 24) (fun c => .scMod c.offSyscfg1 c.mHostsel 0) fun s => s.scMod32 s.cfg.offSyscfg1 s.cfg.mHostsel 0)).trans
    (.row (fun c => .delay c.tLink) fun s => (s.delay s.cfg.tLink).setLs .linkPoll)

/-- R250: rows 26 and 27. -/
theorem powerDown_stretch : Stretch 2 26 28 fun c => [.rstAssert, .scMod c.offClkcfg1 c.mPcieClkEn 0] :=
  (Stretch.row (m := 27) (fun _ => .rstAssert) (·.rstAssert)).trans
    (.row (fun c => .scMod c.offClkcfg1 c.mPcieClkEn 0) fun s => s.scMod32 s.cfg.offClkcfg1 s.cfg.mPcieClkEn 0)

/-- R222: a CALIBRATE that succeeds raises nothing. -/
theorem State.calibrate_raised {s : State} (h : s.cfg.Wf) (a d : Byte) (hr : (s.calibrate a d).ret = .ok) :
    (s.calibrate a d).raised = s.raised := by
  obtain ⟨t, vs, x, run, -, ends⟩ := calibrateWaitsWritesWaits s a d h
  obtain rfl : s.calibrate a d = t := Host.Outcome.next.inj run
  rcases ends with ⟨-, ht⟩ | ⟨-, ws, w, idle, -, -, ht⟩
  · rw [ht] at hr
    cases hr
  · cases idle with
    | false =>
      rw [ht] at hr
      cases hr
    | true => rw [ht]; simp

/-- R245: a row of CALIBRATING whose two answers see the busy flag clear. -/
theorem calibrate_row {n m : BitVec 6} (i : Instr) (a d : Byte) {s : State} (h : s.Running n) {u v : Word} {rest : List Word}
    (hd : s.draws = u :: v :: rest) (hu : u &&& s.cfg.mPhyBusy = 0) (hv : v &&& s.cfg.mPhyBusy = 0)
    (hx : exec i s = .next ((s.calibrate a d).goto m) := by rfl) (row : decodeStep n = .ok i := by rfl) (h0 : n ≠ 0 := by decide) :
    s.Brings ((s.calibrate a d).goto m) 1 m (idleCalEvents s.cfg a d u v) rest [⟨a, d, true⟩] [] := by
  obtain ⟨hist, phyLog, calFail, ret, draws⟩ := State.calibrate_of_idle h.wf a d hd hu hv
  exact h.row hx hist draws phyLog (by simp [State.calibrate_raised h.wf a d ret]) (by simp) calFail (by simp) (State.calibrate_ss h.wf a d)
    row h0

/-- R245: rows 6 to 8 with an idle PHY. -/
theorem State.Running.calibrated {s : State} (h : s.Running 6) {v1 v2 v3 v4 v5 v6 : Word} {rest : List Word}
    (hd : s.draws = v1 :: v2 :: v3 :: v4 :: v5 :: v6 :: rest) (idle : ∀ v ∈ [v1, v2, v3, v4, v5, v6], v &&& s.cfg.mPhyBusy = 0) :
    ∃ t, s.Brings t 3 9 (idleCalSeqEvents s.cfg v1 v2 v3 v4 v5 v6) rest [⟨0x00, 0x80, true⟩, ⟨0x01, 0x04, true⟩, ⟨0x68, 0xB4, true⟩] [] := by
  simp only [List.forall_mem_cons] at idle
  obtain ⟨h1, h2, h3, h4, h5, h6, -⟩ := idle
  have cal1 := calibrate_row (m := 7) .seq06 0x00 0x80 h hd h1 h2
  have cal2 := calibrate_row (m := 8) .seq07 0x01 0x04 cal1.running cal1.draws (cal1.cfg ▸ h3) (cal1.cfg ▸ h4)
  have two := cal1.trans cal2
  have cal3 := calibrate_row (m := 9) .seq08 0x68 0xB4 two.running two.draws (two.cfg ▸ h5) (two.cfg ▸ h6)
  have all := two.trans cal3
  rw [two.cfg, cal1.cfg] at all
  exact ⟨_, all⟩

/-- R244 to R246: rows 1 to 11 with an idle PHY. -/
theorem State.Running.toPllSample {s : State} (h : s.Running 1) {v1 v2 v3 v4 v5 v6 : Word} {rest : List Word}
    (hd : s.draws = v1 :: v2 :: v3 :: v4 :: v5 :: v6 :: rest) (idle : ∀ v ∈ [v1, v2, v3, v4, v5, v6], v &&& s.cfg.mPhyBusy = 0) :
    ∃ t, s.Brings t 11 12 (prologueEvents s.cfg ++ idleCalSeqEvents s.cfg v1 v2 v3 v4 v5 v6 ++ clockOnEvents s.cfg) rest
      [⟨0x00, 0x80, true⟩, ⟨0x01, 0x04, true⟩, ⟨0x68, 0xB4, true⟩] [] := by
  obtain ⟨t, toT⟩ := prologue_stretch s h
  obtain ⟨u, toU⟩ := toT.running.calibrated (toT.draws.trans hd) (toT.cfg ▸ idle)
  rw [toT.cfg] at toU
  have calibrated := toT.trans toU
  obtain ⟨w, toW⟩ := clockOn_stretch u calibrated.running
  rw [calibrated.cfg, calibrated.draws] at toW
  exact ⟨w, calibrated.trans toW⟩

theorem State.drawAt_zero_of_cons {s : State} {p : Word} {rest : List Word} (hd : s.draws = p :: rest) : s.drawAt 0 = p := by
  simp [State.drawAt, hd]

/-- R247: row 12 finds the PLL unlocked. -/
theorem State.Running.pllUnlocked {s : State} (h : s.Running 12) {p : Word} {rest : List Word} (hd : s.draws = p :: rest)
    (hp : p &&& s.cfg.mPllLock = 0) : ∃ t, s.Brings t 1 13 [.scRd s.cfg.offPpllcfg1 p] rest [] [.pllUnlock] := by
  obtain rfl := State.drawAt_zero_of_cons hd
  exact ⟨_, h.row ((exec_seq12 s).trans (congrArg _ (if_pos hp))) rfl (congrArg (List.drop 1) hd) (List.append_nil _).symm rfl rfl rfl
    rfl rfl⟩

/-- R248: row 12 finds the PLL locked. -/
theorem State.Running.pllLocked {s : State} (h : s.Running 12) {p : Word} {rest : List Word} (hd : s.draws = p :: rest)
    (hp : p &&& s.cfg.mPllLock ≠ 0) : ∃ t, s.Brings t 1 15 [.scRd s.cfg.offPpllcfg1 p] rest [] [] := by
  obtain rfl := State.drawAt_zero_of_cons hd
  exact ⟨_, h.row ((exec_seq12 s).trans (congrArg _ (if_neg hp))) rfl (congrArg (List.drop 1) hd) (List.append_nil _).symm
    (List.append_nil _).symm rfl rfl rfl rfl⟩

/-- R250: row 25 finds no link. -/
theorem State.Running.linkDown {s : State} (h : s.Running 25) {l : Word} {rest : List Word} (hd : s.draws = l :: rest)
    (hl : l &&& s.cfg.mLinkUp = 0) : ∃ t, s.Brings t 1 26 [.ssRd s.cfg.offStatus l] rest [] [.linkDown] := by
  obtain rfl := State.drawAt_zero_of_cons hd
  exact ⟨_, h.row ((exec_seq25 s).trans (congrArg _ (if_pos hl))) rfl (congrArg (List.drop 1) hd) (List.append_nil _).symm rfl rfl rfl
    rfl rfl⟩

/-- R249: row 25 finds a link. -/
theorem State.Running.linkUp {s : State} (h : s.Running 25) {l : Word} {rest : List Word} (hd : s.draws = l :: rest)
    (hl : l &&& s.cfg.mLinkUp ≠ 0) : ∃ t, s.Brings t 1 30 [.ssRd s.cfg.offStatus l] rest [] [] := by
  obtain rfl := State.drawAt_zero_of_cons hd
  exact ⟨_, h.row ((exec_seq25 s).trans (congrArg _ (if_neg hl))) rfl (congrArg (List.drop 1) hd) (List.append_nil _).symm
    (List.append_nil _).symm rfl rfl rfl rfl⟩

/-- R246 to R248: rows 1 to 24 with an idle PHY and a locked PLL. -/
theorem State.Running.toLinkSample {s : State} (h : s.Running 1) {v1 v2 v3 v4 v5 v6 p : Word} {rest : List Word}
    (hd : s.draws = v1 :: v2 :: v3 :: v4 :: v5 :: v6 :: p :: rest) (idle : ∀ v ∈ [v1, v2, v3, v4, v5, v6], v &&& s.cfg.mPhyBusy = 0)
    (hp : p &&& s.cfg.mPllLock ≠ 0) :
    ∃ t, s.Brings t 22 25 (prologueEvents s.cfg ++ idleCalSeqEvents s.cfg v1 v2 v3 v4 v5 v6 ++ clockOnEvents s.cfg ++
      [.scRd s.cfg.offPpllcfg1 p] ++ lockedEvents s.cfg) rest [⟨0x00, 0x80, true⟩, ⟨0x01, 0x04, true⟩, ⟨0x68, 0xB4, true⟩] [] := by
  obtain ⟨t, toT⟩ := h.toPllSample hd idle
  obtain ⟨u, toU⟩ := toT.running.pllLocked toT.draws (toT.cfg ▸ hp)
  have sampled := toT.trans toU
  obtain ⟨w, toW⟩ := locked_stretch u toU.running
  refine ⟨w, ?_⟩
  simpa [toT.cfg, sampled.cfg, sampled.draws] using sampled.trans toW

/-- R247, R250, R420: DISABLED: the port released, reset asserted, the clock off. -/
theorem State.Running.disabled {s : State} (h : s.Running 0) (hls : s.ls = .disabled) :
    s.rstOut = true ∧ s.sc.clkcfg1 &&& s.cfg.mPcieClkEn = 0 ∧ s.registered = false := by
  obtain ⟨⟨held, -⟩, ⟨off, -⟩, -⟩ := h.stages
  obtain ⟨-, -, -, -, -, registered⟩ := h.control
  exact ⟨held (by simp [hls]), off (by simp [hls]), by simpa [hls] using registered⟩

/-- Settles O19: rows 1 to 12, and the two rows of the disable path. -/
theorem pllUnlockHistory : Obligations.PllUnlockHistory := by
  intro s v1 v2 v3 v4 v5 v6 p rest wf control hseq inputs hd idle hp
  have h : s.Running 1 := .first wf control hseq inputs
  obtain ⟨t, toT⟩ := h.toPllSample hd idle
  obtain ⟨u, toU⟩ := toT.running.pllUnlocked toT.draws (toT.cfg ▸ hp)
  have reset : Stretch 1 13 14 fun _ => [.rstAssert] := .row (fun _ => .rstAssert) (·.rstAssert)
  obtain ⟨w, toW⟩ := reset u toU.running
  have asserted := (toT.trans toU).trans toW
  have halts : exec .seq14 w = .next ((w.scMod32 w.cfg.offClkcfg1 w.cfg.mPcieClkEn 0).halt .disabled 1) := rfl
  have whole := asserted.trans (asserted.running.request halts (.scMod w.cfg.offClkcfg1 w.cfg.mPcieClkEn 0))
  obtain ⟨held, off, registered⟩ := whole.running.disabled rfl
  refine ⟨_, whole.run, ?_, rfl, rfl, rfl, held, whole.cfg ▸ off, registered, whole.calFail, whole.br, whole.ss, ?_, ?_, whole.phyLog,
    whole.raised⟩
  · simpa [asserted.cfg, toT.cfg] using whole.hist
  · exact whole.draws.trans (toW.draws.trans toU.draws)
  · rw [State.halt_res, attachAux_eq, State.scMod32_calFail, asserted.calFail]
    rfl

/-- Settles O20: rows 1 to 25, and the four rows of the disable path. -/
theorem linkDownHistory : Obligations.LinkDownHistory := by
  intro s v1 v2 v3 v4 v5 v6 p l rest wf control hseq inputs hd idle hp hl
  have h : s.Running 1 := .first wf control hseq inputs
  obtain ⟨t, toT⟩ := h.toLinkSample hd idle hp
  obtain ⟨u, toU⟩ := toT.running.linkDown toT.draws (toT.cfg ▸ hl)
  obtain ⟨w, toW⟩ := powerDown_stretch u toU.running
  have asserted := (toT.trans toU).trans toW
  have drives : exec .seq28 w = .next ((w.scMod32 w.cfg.offPplldrv w.cfg.plldrvPdClr w.cfg.plldrvPdSet).goto 29) := rfl
  have driven := asserted.trans (asserted.running.request drives (.scMod w.cfg.offPplldrv w.cfg.plldrvPdClr w.cfg.plldrvPdSet))
  have halts : exec .seq29 ((w.scMod32 w.cfg.offPplldrv w.cfg.plldrvPdClr w.cfg.plldrvPdSet).goto 29) = .next
    ((((w.scMod32 w.cfg.offPplldrv w.cfg.plldrvPdClr w.cfg.plldrvPdSet).goto 29).log 2 0).halt .disabled 2) := rfl
  have whole := driven.trans (State.Running.request (n := 29) driven.running halts (.log 2 0))
  obtain ⟨held, off, registered⟩ := whole.running.disabled rfl
  refine ⟨_, whole.run, ?_, rfl, rfl, rfl, held, whole.cfg ▸ off, ?_, registered, whole.calFail, whole.br, whole.ss, ?_, ?_, whole.phyLog,
    whole.raised⟩
  · simpa [asserted.cfg, (toT.trans toU).cfg, toT.cfg] using whole.hist
  · rw [← whole.cfg]
    simp [ScRegs.modify_pplldrv asserted.running.wf, modified, set_and]
  · exact whole.draws.trans (toW.draws.trans toU.draws)
  · rw [State.halt_res, attachAux_eq, State.log_calFail, driven.calFail]
    rfl

/-- R243: from step `n`, with nothing presented, `k` rows perform the operation `f` and lead to step `m`. Unlike State.Brings it lets the rows
write any register, as those of WINCFG do. -/
structure Performs (k : Nat) (n m : BitVec 6) (f : State → State) : Prop where
  run : ∀ s : State, s.inputs = [] → s.fixup = false → Sys2Proof.core.run k (s.goto n) = .next ((f s).goto m)
  inputs : ∀ s, (f s).inputs = s.inputs
  fixup : ∀ s, (f s).fixup = s.fixup

/-- One row. -/
theorem Performs.row {n m : BitVec 6} (f : State → State) (i : Instr) (hd : decodeStep n = .ok i := by rfl)
    (hx : ∀ s, exec i (s.goto n) = .next ((f s).goto m) := by exact fun _ => rfl) (hi : ∀ s, (f s).inputs = s.inputs := by simp)
    (hf : ∀ s, (f s).fixup = s.fixup := by simp) : Performs 1 n m f :=
  ⟨fun s si sf => run_succ ((step_row_nil (s := s.goto n) si sf hd).trans (hx s)) 0, hi, hf⟩

/-- Rows after rows. -/
theorem Performs.trans {j k : Nat} {n m p : BitVec 6} {f g : State → State} (first : Performs j n m f) (second : Performs k m p g) :
    Performs (j + k) n p fun s => g (f s) :=
  ⟨fun s hi hf => run_trans (first.run s hi hf) (second.run (f s) ((first.inputs s).trans hi) ((first.fixup s).trans hf)),
    fun s => (second.inputs _).trans (first.inputs s), fun s => (second.fixup _).trans (first.fixup s)⟩

/-- R280: rows 30 to 38 are WINCFG, and ATTACH completes in UP. -/
theorem wincfg_rows : Performs 9 30 0 fun s => s.wincfg.halt .up 0 :=
  ((((((((Performs.row (m := 31) (fun s => s.brWr32 s.cfg.offMembase s.cfg.membaseSentinel) .seq30).trans
    (.row (m := 32) (fun s => s.brWr32 s.cfg.offIobase s.cfg.ioWinBase) .seq31)).trans
    (.row (m := 33) (fun s => s.ssWr32 s.cfg.offBar0setup s.cfg.bar0Mask2g) .seq32)).trans
    (.row (m := 34) (fun s => s.ssWr32 s.cfg.offImbasebar0 s.cfg.hostMemBase) .seq33)).trans
    (.row (m := 35) (fun s => s.ssWr32 s.cfg.offId s.cfg.idWord) .seq34)).trans
    (.row (m := 36) (fun s => s.ssWr32 s.cfg.offClass s.cfg.classWord) .seq35)).trans
    (.row (m := 37) (fun s => s.ssWr32 s.cfg.offSubid s.cfg.subidWord) .seq36)).trans
    (.row (m := 38) (fun s => s.brMod32 s.cfg.offPcimsk 0 s.cfg.mPcimskLegacy) .seq37)).trans
    (.row (fun s => s.register.halt .up 0) .seq38)

/-- R280: WINCFG in closed form. -/
theorem State.wincfg_eq {s : State} (h : s.cfg.Wf) : s.wincfg = { s with
    br := { s.br with membase := s.cfg.membaseSentinel, iobase := s.cfg.ioWinBase, pcimsk := s.br.pcimsk ||| s.cfg.mPcimskLegacy }
    ss := { bar0setup := s.cfg.bar0Mask2g, imbasebar0 := s.cfg.hostMemBase, id := s.cfg.idWord, cls := s.cfg.classWord,
            subid := s.cfg.subidWord }
    registered := true
    ans := s.br.pcimsk
    hist := s.hist ++ wincfgEvents s.cfg s.br.pcimsk } := by
  simp [State.wincfg, State.brWr32_membase h, State.brWr32_iobase h, State.ssWr32_bar0setup h, State.ssWr32_imbasebar0 h,
    State.ssWr32_id h, State.ssWr32_cls h, State.ssWr32_subid h, State.brMod32_pcimsk h, State.register, wincfgEvents]

/-- R249, R420: from row 30 to UP: reset released, the clock on, the host-mode select clear. -/
theorem State.Running.released {s : State} (h : s.Running 30) :
    s.rstOut = false ∧ s.sc.clkcfg1 &&& s.cfg.mPcieClkEn = s.cfg.mPcieClkEn ∧ s.sc.syscfg1 &&& s.cfg.mHostsel = 0 := by
  obtain ⟨⟨-, free⟩, ⟨-, on, hostsel⟩, -⟩ := h.stages
  exact ⟨free (by simp [State.seqIn, h.seq]), on (by simp [State.seqIn, h.seq]), hostsel (by simp [State.seqIn, h.seq])⟩

/-- Settles O21: rows 1 to 25, and WINCFG. -/
theorem linkUpHistory : Obligations.LinkUpHistory := by
  intro s v1 v2 v3 v4 v5 v6 p l rest wf control hseq inputs hd idle hp hl
  have h : s.Running 1 := .first wf control hseq inputs
  obtain ⟨t, toT⟩ := h.toLinkSample hd idle hp
  obtain ⟨u, toU⟩ := toT.running.linkUp toT.draws (toT.cfg ▸ hl)
  have linked := toT.trans toU
  obtain ⟨free, on, hostsel⟩ := toU.running.released
  obtain ⟨wfU, controlU, -, inputsU, seqU⟩ := toU.running
  obtain ⟨-, fixupU, -⟩ := controlU.bringingUp (by simp [seqU])
  have at30 : u.goto 30 = u := by rw [← seqU]; rfl
  have windows := wincfg_rows.run u inputsU fixupU
  rw [at30, State.wincfg_eq wfU] at windows
  rw [linked.cfg] at on hostsel
  refine ⟨_, run_trans linked.run windows, ?_, rfl, rfl, rfl, free, rfl, linked.calFail, on, hostsel, ?_, ?_, linked.draws, ?_,
    linked.phyLog, linked.raised.trans (List.append_nil _)⟩
  · simp [linked.hist, linked.cfg, linked.br, toT.cfg]
  · simp [linked.cfg, linked.br]
  · simp [linked.cfg]
  · simp [attachAux_eq, statusOk, linked.calFail]

end Sys2Proof.Machine
end

section
/-! PROOF. WINCFG and the three window comparators: the statements O44, O56, O57 and O58. -/

namespace Sys2Proof.Machine

/-- Settles O44: the closed form of the ten requests. -/
theorem wincfgWritesTheWindows : Obligations.WincfgWritesTheWindows := fun _ h =>
  congrArg Host.Outcome.next (State.wincfg_eq h)

/-- R161: a claim that is a proposition, as the answer of the traffic port. -/
theorem State.xAnswer_of_iff (s : State) {hit : Bool} {p : Prop} [Decidable p] (h : hit = true ↔ p) (addr : Word) :
    s.xAnswer hit addr = if p then { s with xHit := true, xAddr := addr } else { s with xHit := false, xAddr := 0 } := by
  by_cases hp : p
  · rw [if_pos hp, h.mpr hp]
    rfl
  · rw [if_neg hp, Bool.eq_false_iff.mpr (mt h.mp hp)]
    rfl

/-- R289, R290: the comparison by subtraction is membership of an interval that does not wrap. -/
theorem le_and_sub_lt_iff (base size a : Word) :
    base ≤ a ∧ a - base < size ↔ base.toNat ≤ a.toNat ∧ a.toNat < base.toNat + size.toNat := by
  refine and_congr_right fun le => ?_
  have le : base.toNat ≤ a.toNat := le
  rw [BitVec.lt_def, BitVec.toNat_sub_of_le le]
  omega

/-- R289: the addresses that the outbound memory window claims. -/
theorem State.outbMemHit_iff (s : State) (a : Word) : s.outbMemHit a = true ↔
    s.br.membase = s.cfg.membaseSentinel ∧ s.cfg.memWinBase.toNat ≤ a.toNat ∧
      a.toNat < s.cfg.memWinBase.toNat + s.cfg.memWinSize.toNat := by
  simp only [State.outbMemHit, Bool.and_eq_true, beq_iff_eq, decide_eq_true_eq, and_assoc, le_and_sub_lt_iff]

/-- R290: the addresses that the outbound I/O window claims. -/
theorem State.outbIoHit_iff (s : State) (a : Word) : s.outbIoHit a = true ↔
    s.br.iobase.toNat ≤ a.toNat ∧ a.toNat < s.br.iobase.toNat + s.cfg.ioWinSize.toNat := by
  simp only [State.outbIoHit, Bool.and_eq_true, decide_eq_true_eq, le_and_sub_lt_iff]

/-- Settles O57: each comparator answers as its interval says, and the reserved kind misses. -/
theorem outboundWindows : Obligations.OutboundWindows := fun s a =>
  ⟨congrArg Host.Outcome.next (s.xAnswer_of_iff (s.outbMemHit_iff a) a),
    congrArg Host.Outcome.next (s.xAnswer_of_iff (s.outbIoHit_iff a) a), rfl⟩

/-- R17 (g): an address of one of two intervals that do not meet is not in the other. -/
theorem Cfg.Apart.not_both {b n b' n' a : Nat} (h : Cfg.Apart b n b' n') (first : b ≤ a ∧ a < b + n) : ¬(b' ≤ a ∧ a < b' + n') := by
  unfold Cfg.Apart at h
  omega

/-- Settles O58: a hit lies in the interval of its window, and the three intervals are pairwise apart. -/
theorem atMostOneOutboundWindowClaims : Obligations.AtMostOneOutboundWindowClaims := by
  intro s t u a wf base ht hu
  cases ht
  cases hu
  obtain ⟨-, -, -, ⟨memIo, memChip, ioChip⟩, -⟩ := wf
  have mem (hit : s.outbMemHit a = true) := ((s.outbMemHit_iff a).mp hit).2
  have io (hit : s.outbIoHit a = true) := base ▸ (s.outbIoHit_iff a).mp hit
  refine ⟨fun ⟨m, i⟩ => Cfg.Apart.not_both memIo (mem m) (io i), fun lo hi => ⟨?mem, ?io⟩⟩
  case mem => exact Bool.eq_false_iff.mpr fun m => Cfg.Apart.not_both memChip (mem m) ⟨lo, hi⟩
  case io => exact Bool.eq_false_iff.mpr fun i => Cfg.Apart.not_both ioChip (io i) ⟨lo, hi⟩

/-- R288: the offset bits are 15:0 and those set in bits 31:16 of BAR0SETUP. -/
theorem inbOffsetMask_getLsbD (w : Word) {i : Nat} (hi : i < 32) : (inbOffsetMask w).getLsbD i = (decide (i < 16) || w.getLsbD i) := by
  have high : ∀ j : Fin 32, (0xFFFF0000 : Word).getLsbD j.val = !decide (j.val < 16) := by decide
  have low : ∀ j : Fin 32, (0x0000FFFF : Word).getLsbD j.val = decide (j.val < 16) := by decide
  rw [inbOffsetMask, BitVec.getLsbD_or, BitVec.getLsbD_and, high ⟨i, hi⟩, low ⟨i, hi⟩]
  cases decide (i < 16) <;> simp

/-- R288: equal outside a mask is equal in each bit that the mask leaves clear. -/
theorem and_not_eq_iff (a b m : Word) :
    a &&& ~~~m = b &&& ~~~m ↔ ∀ i, i < 32 → m.getLsbD i = false → a.getLsbD i = b.getLsbD i := by
  rw [BitVec.eq_of_getLsbD_eq_iff]
  refine forall₂_congr fun i hi => ?_
  rw [BitVec.getLsbD_and, BitVec.getLsbD_and, BitVec.getLsbD_not]
  cases m.getLsbD i <;> simp [hi]

/-- R288: with the enable bit clear the inbound window claims nothing. -/
theorem State.inbHit_of_closed {s : State} (closed : s.ss.bar0setup &&& s.cfg.bar0En = 0) (a : Word) : s.inbHit a = false := by
  simp [State.inbHit, closed]

/-- R288: with the enable bit set the inbound window compares the bits above the offset bits. -/
theorem State.inbHit_iff_of_open {s : State} (opened : s.ss.bar0setup &&& s.cfg.bar0En ≠ 0) (a : Word) : s.inbHit a = true ↔
    a &&& ~~~inbOffsetMask s.ss.bar0setup = s.ss.imbasebar0 &&& ~~~inbOffsetMask s.ss.bar0setup := by
  rw [State.inbHit, Bool.and_eq_true, bne_iff_ne, beq_iff_eq, and_iff_right opened]

/-- R288: an address hits exactly if it has the bits of IMBASEBAR0 above the offset bits. -/
theorem State.inbHit_iff_bits {s : State} (opened : s.ss.bar0setup &&& s.cfg.bar0En ≠ 0) (a : Word) : s.inbHit a = true ↔
    ∀ i, i < 32 → 16 ≤ i → s.ss.bar0setup.getLsbD i = false → a.getLsbD i = s.ss.imbasebar0.getLsbD i := by
  rw [State.inbHit_iff_of_open opened, and_not_eq_iff]
  refine forall₂_congr fun i hi => ?_
  rw [inbOffsetMask_getLsbD _ hi, Bool.or_eq_false_iff, decide_eq_false_iff_not, Nat.not_lt, and_imp]

/-- R288: the host address takes its offset bits from the address and the others from IMBASEBAR0. -/
theorem State.inbAddr_getLsbD (s : State) (a : Word) {i : Nat} (hi : i < 32) : (s.inbAddr a).getLsbD i =
    if i < 16 ∨ s.ss.bar0setup.getLsbD i = true then a.getLsbD i else s.ss.imbasebar0.getLsbD i := by
  have mask := inbOffsetMask_getLsbD s.ss.bar0setup hi
  rw [State.inbAddr, BitVec.getLsbD_or, BitVec.getLsbD_and, BitVec.getLsbD_and, BitVec.getLsbD_not, mask]
  split
  · next own => simp [Bool.or_eq_true_iff.mpr (own.imp_left decide_eq_true)]
  · next base =>
    rw [not_or, Bool.not_eq_true] at base
    rw [base.2, decide_eq_false base.1]
    simp [hi]

/-- R288: bits 15:0 are offset bits anyway, so an enable bit among them leaves the offset bits to the mask. -/
theorem inbOffsetMask_open (mask : Word) {en : Word} (low : en.toNat < 2 ^ 16) : inbOffsetMask (mask ||| en) = mask ||| 0xFFFF := by
  have lows : ∀ j : Fin 32, (0xFFFF : Word).getLsbD j.val = decide (j.val < 16) := by decide
  refine BitVec.eq_of_getLsbD_eq fun i hi => ?_
  rw [inbOffsetMask_getLsbD _ hi, BitVec.getLsbD_or, BitVec.getLsbD_or, lows ⟨i, hi⟩]
  by_cases h : i < 16
  · simp [h]
  · have clear : en.getLsbD i = false := Nat.testBit_lt_two_pow (low.trans_le (Nat.pow_le_pow_right (by decide) (Nat.not_lt.mp h)))
    simp [h, clear]

/-- Of a mask of ones up to a power of two: a word lies inside it exactly if it is below that power. -/
theorem and_eq_self_iff_lt {a m : Word} {size : Nat} (top : m.toNat + 1 = size) (pow : size.isPowerOfTwo) :
    a &&& m = a ↔ a.toNat < size := by
  obtain ⟨k, rfl⟩ := pow
  rw [← BitVec.toNat_inj, BitVec.toNat_and, Nat.eq_sub_of_add_eq top, Nat.and_two_pow_sub_one_eq_mod,
    Nat.mod_eq_iff_lt (Nat.two_pow_pos k).ne']

/-- A word has no bit outside a mask exactly if it lies inside it. -/
theorem and_not_eq_zero_iff (a m : Word) : a &&& ~~~m = 0 ↔ a &&& m = a := by
  rw [BitVec.eq_of_getLsbD_eq_iff, BitVec.eq_of_getLsbD_eq_iff]
  refine forall₂_congr fun i hi => ?_
  rw [BitVec.getLsbD_and, BitVec.getLsbD_and, BitVec.getLsbD_not]
  cases m.getLsbD i <;> simp [hi]

/-- R17 (e), (f): the open window's offset bits are those of the addresses below INB_SIZE. -/
theorem inside_open_iff {c : Cfg} (h : c.Wf) (low : c.bar0En.toNat < 2 ^ 16) (a : Word) :
    a &&& inbOffsetMask (c.bar0Mask2g ||| c.bar0En) = a ↔ a.toNat < c.inbSize := by
  obtain ⟨-, -, ⟨-, -, -, -, top, pos, pow, -⟩, -⟩ := h
  rw [inbOffsetMask_open _ low]
  exact and_eq_self_iff_lt top ((Nat.and_sub_one_eq_zero_iff_isPowerOfTwo pos).mp pow)

/-- R17 (e): the open word has the enable bit. -/
theorem bar0_open_enabled {c : Cfg} (h : c.Wf) : (c.bar0Mask2g ||| c.bar0En) &&& c.bar0En ≠ 0 := by
  obtain ⟨-, -, ⟨-, -, ⟨enable, -⟩, -⟩, -⟩ := h
  rwa [set_and]

/-- R17 (e): the closed word has no enable bit. -/
theorem bar0_closed_disabled {c : Cfg} (h : c.Wf) : c.bar0Mask2g &&& c.bar0En = 0 := by
  obtain ⟨-, -, ⟨-, -, -, apart, -⟩, -⟩ := h
  rwa [BitVec.and_comm]

/-- R288: with the base 0 an open window claims the addresses made of offset bits. -/
theorem State.inbHit_iff_inside {s : State} (opened : s.ss.bar0setup &&& s.cfg.bar0En ≠ 0) (base : s.ss.imbasebar0 = 0) (a : Word) :
    s.inbHit a = true ↔ a &&& inbOffsetMask s.ss.bar0setup = a := by
  have zero : 0 &&& ~~~inbOffsetMask s.ss.bar0setup = 0 := BitVec.zero_and
  rw [State.inbHit_iff_of_open opened, base, zero, and_not_eq_zero_iff]

/-- R288: with the base 0 an address translates to its offset bits. -/
theorem State.inbAddr_of_base_zero {s : State} (base : s.ss.imbasebar0 = 0) (a : Word) :
    s.inbAddr a = a &&& inbOffsetMask s.ss.bar0setup := by
  simp [State.inbAddr, base]

/-- R288, R292: open at base 0, the inbound window claims the addresses below INB_SIZE and translates each to itself. -/
theorem State.inbXlate_open {s : State} (wf : s.cfg.Wf) (bar : s.ss.bar0setup = s.cfg.bar0Mask2g ||| s.cfg.bar0En)
    (low : s.cfg.bar0En.toNat < 2 ^ 16) (base : s.ss.imbasebar0 = 0) (a : Word) :
    s.xAnswer (s.inbHit a) (s.inbAddr a) =
      { s with xHit := decide (a.toNat < s.cfg.inbSize), xAddr := if a.toNat < s.cfg.inbSize then a else 0 } := by
  have inside : a &&& inbOffsetMask s.ss.bar0setup = a ↔ a.toNat < s.cfg.inbSize := bar ▸ inside_open_iff wf low a
  have hit := (State.inbHit_iff_inside (bar ▸ bar0_open_enabled wf) base a).trans inside
  rw [State.xAnswer_of_iff s hit]
  split
  · next below => simp [below, State.inbAddr_of_base_zero base, inside.mpr below]
  · next above => simp [above]

/-- R288: with the enable bit clear the inbound window answers a miss. -/
theorem State.inbXlate_closed {s : State} (closed : s.ss.bar0setup &&& s.cfg.bar0En = 0) (a : Word) :
    s.xAnswer (s.inbHit a) (s.inbAddr a) = { s with xHit := false, xAddr := 0 } := by
  rw [State.inbHit_of_closed closed]
  rfl

/-- Settles O56: the comparator bit by bit, then at the open and at the closed word. -/
theorem inboundWindow : Obligations.InboundWindow := by
  refine ⟨fun s a => ⟨s.inbHit a, if s.inbHit a then s.inbAddr a else 0, rfl, ?miss, ?closed, fun opened => ⟨?hit, ?address⟩⟩,
    fun s a wf bar low base => congrArg Host.Outcome.next (State.inbXlate_open wf bar low base a),
    fun s a wf bar => congrArg Host.Outcome.next (State.inbXlate_closed (bar ▸ bar0_closed_disabled wf) a)⟩
  case miss => exact fun miss => if_neg (Bool.eq_false_iff.mp miss)
  case closed => exact fun closed => State.inbHit_of_closed closed a
  case hit => exact State.inbHit_iff_bits opened a
  case address =>
    intro hit i hi
    rw [if_pos hit]
    exact s.inbAddr_getLsbD a hi

end Sys2Proof.Machine
end

section
/-! PROOF. Which accesses of CFGDATA an operation appends to the event history: each under a write of CFGADDR of its own
(State.PairsAccesses); and the statement O16. -/

namespace Sys2Proof.Machine

/-- R324: a history that makes its own selections is paired whether or not one stands open before it. -/
theorem pairedFrom_of_closed {c : Cfg} {es : List Event} (h : pairedFrom c false es = true) (sel : Bool) : pairedFrom c sel es = true := by
  cases es with
  | nil => rfl
  | cons e es => by_cases data : e.isCfgdata c = true <;> simp_all [pairedFrom]

/-- R324: of two paired histories the second needs nothing of the first. -/
theorem pairedFrom_append {c : Cfg} {es fs : List Event} {sel : Bool} (h : pairedFrom c sel es = true)
    (k : pairedFrom c false fs = true) : pairedFrom c sel (es ++ fs) = true := by
  induction es generalizing sel with
  | nil => exact pairedFrom_of_closed k sel
  | cons e es ih =>
    rw [pairedFrom] at h
    rw [List.cons_append, pairedFrom]
    split at h
    · next data =>
      rw [Bool.and_eq_true] at h
      rw [if_pos data, Bool.and_eq_true]
      exact ⟨h.1, ih h.2⟩
    · next other =>
      rw [if_neg other]
      exact ih h

/-- R221: a wait reads PHYCFG and delays. -/
theorem pairedFrom_waitTrail (c : Cfg) (vs : List Word) (v : Word) : pairedFrom c false (waitTrail c vs v) = true := by
  induction vs with
  | nil => rfl
  | cons u us ih => exact ih

/-- R324: the way from `s` to `t` only appends to the history, each access of CFGDATA after a write of CFGADDR, and keeps the Cfg. -/
structure State.PairsAccesses (s t : State) : Prop where
  cfg : t.cfg = s.cfg
  appended : ∃ es, t.hist = s.hist ++ es ∧ pairedFrom s.cfg false es = true

namespace State.PairsAccesses

theorem trans {s t u : State} (h : s.PairsAccesses t) (k : t.PairsAccesses u) : s.PairsAccesses u := by
  obtain ⟨es, ht, hes⟩ := h.appended
  obtain ⟨fs, hu, hfs⟩ := k.appended
  rw [h.cfg] at hfs
  exact ⟨k.cfg.trans h.cfg, es ++ fs, by rw [hu, ht, List.append_assoc], pairedFrom_append hes hfs⟩

/-- An operation that issues nothing. -/
theorem quiet {s t : State} (hh : t.hist = s.hist := by simp) (hc : t.cfg = s.cfg := by simp) : s.PairsAccesses t :=
  ⟨hc, [], by simp [hh], rfl⟩

/-- An operation that issues requests of which each access of CFGDATA follows a write of CFGADDR. -/
theorem issue {s t : State} {es : List Event} (hh : t.hist = s.hist ++ es) (he : pairedFrom s.cfg false es = true)
    (hc : t.cfg = s.cfg := by simp) : s.PairsAccesses t :=
  ⟨hc, es, hh, he⟩

/-- An operation that issues one request, and not one of CFGDATA. -/
theorem emit {s t : State} {e : Event} (hh : t.hist = s.hist ++ [e]) (he : e.isCfgdata s.cfg = false := by rfl)
    (hc : t.cfg = s.cfg := by simp) : s.PairsAccesses t :=
  issue hh (by simp [pairedFrom, he]) hc

theorem complete {s t : State} (h : s.PairsAccesses t) (status aux : Byte) (rdata : Word) :
    s.PairsAccesses (t.complete status aux rdata) :=
  h.trans (quiet rfl)

/-- R222: CALIBRATE reads and writes PHYCFG, delays and logs. -/
theorem calibrate {s : State} (wf : s.cfg.Wf) (a d : Byte) : s.PairsAccesses (s.calibrate a d) := by
  have waits := pairedFrom_waitTrail s.cfg
  obtain ⟨t, vs, v, run, -, ends⟩ := calibrateWaitsWritesWaits s a d wf
  obtain rfl : s.calibrate a d = t := Host.Outcome.next.inj run
  rcases ends with ⟨-, ht⟩ | ⟨-, ws, w, idle, -, -, ht⟩
  · exact issue ((congrArg State.hist ht).trans (List.append_assoc ..)) (pairedFrom_append (waits vs v) rfl)
  · have written : pairedFrom s.cfg false [.ssWr s.cfg.offPhycfg (phyControl s.cfg a d), .delay s.cfg.tPhywr] = true := rfl
    have logged : pairedFrom s.cfg false (if idle then [] else [.log 1 (BitVec.ofNat 32 (256 * a.toNat + 1))]) = true := by
      cases idle <;> rfl
    have all := pairedFrom_append (pairedFrom_append (pairedFrom_append (waits vs v) written) (waits ws w)) logged
    exact issue ((congrArg State.hist ht).trans (by simp only [List.append_assoc])) all

/-- R312 to R314: the selection, and the one read. -/
theorem cfgRead {s : State} (wf : s.cfg.Wf) (w : Width) (bus devfn : Byte) (off : BitVec 12) :
    s.PairsAccesses (s.cfgRead w bus devfn off) := by
  have distinct := wf.brDistinct
  rw [State.cfgRead_eq wf rfl]
  exact issue rfl (by simp [pairedFrom, Event.isCfgdata, Event.isCfgaddr, distinct])

/-- R315 to R317: the selection, the read of a narrow access, and the write. -/
theorem cfgWrite {s : State} (wf : s.cfg.Wf) (w : Width) (bus devfn : Byte) (off : BitVec 12) (v : Word) :
    s.PairsAccesses (s.cfgWrite w bus devfn off v) := by
  have distinct := wf.brDistinct
  by_cases hw : w = .dword
  · rw [hw, State.cfgWrite_dword wf rfl]
    exact issue rfl (by simp [pairedFrom, Event.isCfgdata, Event.isCfgaddr, distinct])
  · rw [State.cfgWrite_narrow wf rfl w hw]
    exact issue rfl (by simp [pairedFrom, Event.isCfgdata, Event.isCfgaddr, distinct])

/-- R344: five accesses, each with a selection of its own. -/
theorem housekeep {s : State} (wf : s.cfg.Wf) (bus devfn irq : Byte) : s.PairsAccesses (s.housekeep bus devfn irq) := by
  have write : ∀ {t : State} (w : Width) (off : BitVec 12) (v : Word), s.PairsAccesses t → s.PairsAccesses (t.cfgWrite w bus devfn off v) :=
    fun w off v h => h.trans (cfgWrite (h.cfg ▸ wf) w bus devfn off v)
  have read : ∀ {t : State}, s.PairsAccesses t → s.PairsAccesses (t.readCommand bus devfn) :=
    fun h => (h.trans (cfgRead (h.cfg ▸ wf) .half bus devfn _)).trans (quiet rfl)
  unfold State.housekeep
  exact write _ _ _ (write _ _ _ (read (write _ _ _ (write _ _ _ (quiet rfl)))))

theorem mapirqFinish {s t : State} (h : s.PairsAccesses t) (wf : s.cfg.Wf) (bus : Byte) (slot : BitVec 5) (irq : Byte) :
    s.PairsAccesses (t.mapirqFinish bus slot irq) := by
  have resolved : s.PairsAccesses (t.setIrq irq) := h.trans quiet
  unfold State.mapirqFinish
  split
  · exact (resolved.trans (housekeep (resolved.cfg ▸ wf) bus _ irq)).complete ..
  · exact resolved.complete ..

/-- R292: the rest of a MAPIRQ(0,0). -/
theorem mapirqResume {s : State} (wf : s.cfg.Wf) : s.PairsAccesses s.mapirqResume := by
  have based : s.PairsAccesses s.zeroBase := by
    rw [State.zeroBase_eq wf rfl]
    exact issue rfl rfl
  exact (based.mapirqFinish wf 0 0 0).trans (quiet rfl)

theorem mapirqBody {s : State} (wf : s.cfg.Wf) (bus : Byte) (slot : BitVec 5) : s.PairsAccesses (s.mapirqBody bus slot) := by
  unfold State.mapirqBody
  split
  · exact quiet
  · unfold State.mapirqRun
    split
    · exact emit rfl
    · split
      · exact mapirqFinish (quiet rfl) wf ..
      · have logged : s.PairsAccesses (s.logUnexpected bus slot) := emit rfl
        exact logged.mapirqFinish wf ..

theorem cfgrdBody {s : State} (wf : s.cfg.Wf) (w : Width) (bus devfn : Byte) (off : BitVec 12) :
    s.PairsAccesses (s.cfgrdBody w bus devfn off) := by
  unfold State.cfgrdBody
  split
  · exact quiet
  · exact (cfgRead wf ..).complete ..

theorem cfgwrBody {s : State} (wf : s.cfg.Wf) (w : Width) (bus devfn : Byte) (off : BitVec 12) (v : Word) :
    s.PairsAccesses (s.cfgwrBody w bus devfn off v) := by
  unfold State.cfgwrBody
  split
  · exact quiet
  · exact (cfgWrite wf ..).complete ..

theorem commanded {s : State} (wf : s.cfg.Wf) (w : BitVec 64) : s.PairsAccesses (s.commanded w) := by
  have accepted : s.PairsAccesses (s.accepted w) := quiet
  have wf : (s.accepted w).cfg.Wf := wf
  exact accepted.trans (State.commandBody_forms (s.accepted w) _ _ _ _ _ (P := (s.accepted w).PairsAccesses) quiet (mapirqBody wf _ _)
    (fun wd => cfgrdBody wf wd _ _ _) (fun wd => cfgwrBody wf wd _ _ _ _) quiet)

theorem of_next {s t u : State} (h : (.next u : Host.Outcome State Fault Refusal) = .next t) (k : s.PairsAccesses u) :
    s.PairsAccesses t :=
  Host.Outcome.next.inj h ▸ k

/-- R243: no row accesses CFGDATA. -/
theorem row {n : BitVec 6} {i : Instr} {s t : State} (wf : s.cfg.Wf) (hd : decodeStep n = .ok i) (hx : exec i s = .next t) :
    s.PairsAccesses t := by
  have distinct := wf.brDistinct
  have hn := encode_decodeStep hd
  cases i with
  | seqIdle => exact .of_next hx quiet
  | seq01 | seq02 | seq03 | seq04 | seq05 | seq09 | seq10 | seq11 | seq13 | seq14 | seq15 | seq16 | seq17 | seq18 | seq19 | seq20
  | seq21 | seq22 | seq23 | seq24 | seq26 | seq27 | seq28 | seq29 | seq32 | seq33 | seq34 | seq35 | seq36 | seq38 =>
    exact .of_next hx (emit rfl)
  | seq06 | seq07 | seq08 => exact .of_next hx ((calibrate wf _ _).trans (quiet rfl))
  | seq12 | seq25 =>
    have sampled := Host.Outcome.next.inj hx
    split at sampled <;> exact sampled ▸ emit rfl
  | seq30 | seq31 => exact .of_next hx (emit rfl (by simp [Event.isCfgdata, distinct]))
  | seq37 =>
    have masked : t = (s.brMod32 s.cfg.offPcimsk 0 s.cfg.mPcimskLegacy).goto 38 := (Host.Outcome.next.inj hx).symm
    rw [masked, State.maskLegacy_eq wf]
    exact issue rfl (by simp [pairedFrom, Event.isCfgdata, distinct])
  | _ => cases hn

end State.PairsAccesses

/-- Settles O16: a command and the rest of MAPIRQ(0,0) select before they access, and no row accesses CFGDATA. -/
theorem addressDataPairIsOneUnit : Obligations.AddressDataPairIsOneUnit := by
  intro s t wf _ hout hr h
  have taken : ∀ rest, s.PairsAccesses { s with inputs := rest } := fun _ => .quiet
  suffices paired : s.PairsAccesses t from paired.appended
  rcases step_cases s hout with ⟨rest, hi, -⟩ | ⟨w, rest, hit, addr, -, hs⟩ | ⟨w, rest, -, hb, hs⟩ | ⟨rest, -, -, hs⟩
  · simp [State.notResetting, hi] at hr
  · exact .of_next (hs.symm.trans h) .quiet
  · have command := State.PairsAccesses.commanded (s := { s with inputs := rest }) wf w
    exact .of_next ((hs.trans (exec_decodeCommand_free w hb)).symm.trans h) ((taken rest).trans command)
  · rw [hs] at h
    split at h
    · exact .of_next h ((taken rest).trans (.mapirqResume wf))
    · split at h
      · next i hd => exact (taken rest).trans (.row wf hd h)
      · cases h

end Sys2Proof.Machine
end

section
/-! PROOF. The Configuration Address Token and the lane operations as words: the statements O35, O36 and O37. -/

namespace Sys2Proof.Machine

/-- A field of a field. -/
theorem extract_extract {n : Nat} (s m p k : Nat) (x : BitVec n) (h : p + k ≤ m) :
    (x.extractLsb' s m).extractLsb' p k = x.extractLsb' (s + p) k := by
  ext i hi
  simp [show p + i < m by omega, Nat.add_assoc]

/-- R311: of the offset only bits 11:2 enter the token. -/
theorem token_congr (c : Cfg) (bus devfn : Byte) {o o' : BitVec 12} (h : o.extractLsb' 2 10 = o'.extractLsb' 2 10) :
    token c bus devfn o = token c bus devfn o' := by
  have bits : ∀ j, 2 ≤ j → j < 12 → o.getLsbD j = o'.getLsbD j := by
    intro j h2 h12
    have bit := congrArg (BitVec.getLsbD · (j - 2)) h
    simpa [show j - 2 < 10 by omega, Nat.add_sub_cancel' h2] using bit
  refine BitVec.eq_of_getLsbD_eq fun i hi => ?_
  rw [token_getLsbD _ _ _ _ _ hi, token_getLsbD _ _ _ _ _ hi]
  congr 1
  split_ifs
  · rfl
  · exact bits i (by omega) (by omega)
  · rfl
  · rfl
  · exact bits _ (by omega) (by omega)
  · rfl

/-- R323: two locations are equal exactly when their bus, devfn and dword number are. -/
theorem locOf_inj {b d b' d' : Byte} {o o' : BitVec 12} :
    locOf b d o = locOf b' d' o' ↔ b = b' ∧ d = d' ∧ o.extractLsb' 2 10 = o'.extractLsb' 2 10 := by
  refine ⟨fun h => ?_, fun ⟨hb, hd, ho⟩ => by rw [locOf, locOf, hb, hd, ho]⟩
  have fields : ∀ (b d : Byte) (o : BitVec 12), (locOf b d o).extractLsb' 18 8 = b ∧ (locOf b d o).extractLsb' 10 8 = d ∧
      (locOf b d o).extractLsb' 0 10 = o.extractLsb' 2 10 := fun b d o =>
    ⟨by rw [locOf, extract_append_high 8 8 18 _ _ rfl, extract_append_top 8 _ _ rfl],
      by rw [locOf, extract_append_high 0 8 10 _ _ rfl, extract_append_low], extract_append_low _ _⟩
  obtain ⟨hb, hd, ho⟩ := fields b d o
  obtain ⟨hb', hd', ho'⟩ := fields b' d' o'
  rw [h] at hb hd ho
  exact ⟨hb.symm.trans hb', hd.symm.trans hd', ho.symm.trans ho'⟩

/-- R323: two tokens are equal exactly when they select the same location. -/
theorem token_inj {c : Cfg} (h : c.Wf) {b d b' d' : Byte} {o o' : BitVec 12} :
    token c b d o = token c b' d' o' ↔ b = b' ∧ d = d' ∧ o.extractLsb' 2 10 = o'.extractLsb' 2 10 := by
  refine ⟨fun same => ?_, fun ⟨hb, hd, ho⟩ => by rw [hb, hd, token_congr c b' d' ho]⟩
  rw [← locOf_inj, ← cfgLoc_token h, ← cfgLoc_token h, same]

/-- The value of a word made of two. -/
theorem toNat_append_add {m n : Nat} (x : BitVec m) (y : BitVec n) : (x ++ y).toNat = x.toNat * 2 ^ n + y.toNat := by
  rw [BitVec.toNat_append, ← Nat.shiftLeft_add_eq_or_of_lt y.isLt, Nat.shiftLeft_eq]

/-- R311: with the enable bit at bit 31 a token is a sum of its shifted fields. -/
theorem token_eq_sum {c : Cfg} (h : c.tokenEn = 0x80000000) (bus devfn : Byte) (off : BitVec 12) :
    token c bus devfn off = BitVec.ofNat 32
      (0x80000000 + off.toNat / 256 * 2 ^ 24 + bus.toNat * 2 ^ 16 + devfn.toNat * 2 ^ 8 + off.toNat % 256 / 4 * 4) := by
  have fields : token c bus devfn off = token c bus (devfn.extractLsb' 3 5 ++ devfn.extractLsb' 0 3)
      (off.extractLsb' 8 4 ++ off.extractLsb' 2 6 ++ 0#2) := by
    have whole : devfn.extractLsb' 3 5 ++ devfn.extractLsb' 0 3 = devfn := BitVec.extractLsb'_append_extractLsb'
    rw [whole]
    refine token_congr c bus devfn ?_
    rw [BitVec.extractLsb'_append_eq_left]
    exact (BitVec.extractLsb'_append_extractLsb'_eq_extractLsb' (start₁ := 2) (len₁ := 6) (len₂ := 4) rfl).symm
  have hoff := off.isLt
  have hbus := bus.isLt
  have hdevfn := devfn.isLt
  have ext : off.toNat / 256 % 16 = off.toNat / 256 := by omega
  have slot : devfn.toNat / 8 % 32 = devfn.toNat / 8 := by omega
  have reg : off.toNat / 4 % 64 = off.toNat % 256 / 4 := by omega
  rw [fields, token_eq_append h]
  apply BitVec.eq_of_toNat_eq
  simp only [toNat_append_add, BitVec.extractLsb'_toNat, BitVec.toNat_ofNat, Nat.shiftRight_eq_div_pow, Nat.reducePow, Nat.div_one, ext, slot, reg]
  omega

/-- Settles O35: the fields of the token, the enable bit and no other; and its value where that bit is bit 31. -/
theorem tokenFields : Obligations.TokenFields := by
  refine ⟨fun s bus devfn off h => ⟨_, rfl, ?_⟩, fun s bus devfn off h => ?_⟩
  · obtain ⟨reg, dev, busField, ext⟩ := token_fields h bus devfn off
    refine ⟨ext, busField, ?slot, ?func, reg, token_and_en .., token_and_rest ..⟩
    case slot => exact (extract_extract 8 8 3 5 _ (by decide)).symm.trans (congrArg (·.extractLsb' 3 5) dev)
    case func => exact (extract_extract 8 8 0 3 _ (by decide)).symm.trans (congrArg (·.extractLsb' 0 3) dev)
  · rw [← token_eq_sum h]
    rfl

/-- Settles O36: the token is a function of Cfg and the operands, and it names the location that it selects. -/
theorem tokenIsPureAndInjective : Obligations.TokenIsPureAndInjective := by
  intro s s' b d b' d' o o' h same
  refine ⟨_, _, rfl, rfl, ?_⟩
  rw [same]
  exact token_inj h

/-- Settles O37: the lanes that an access covers, as the number they are and byte by byte. -/
theorem laneOperations : Obligations.LaneOperations :=
  ⟨fun _ dw off w => by rw [← laneExtract_eq]; rfl,
    fun _ dw v off w hw => ⟨_, rfl, laneMerge_laneByte dw v off w hw⟩⟩

end Sys2Proof.Machine
end

section
/-! PROOF. CFGRD and CFGWR in UP: what a command is (exec_cfgrdInstr, exec_cfgwrInstr), the dword that a write puts in place (writtenDword), the
bytes that it leaves (State.cfgWrite_cfgByte); and the statements O26, O27 and O28. -/

namespace Sys2Proof.Machine

/-- R310, R104: an aligned access in UP is not turned away, nor is any other under the policy `literal`. -/
theorem State.cfgRefusal_none {s : State} {w : Width} {off : BitVec 12} (up : s.ls = .up)
    (ha : off.toNat % widthBytes w = 0 ∨ s.cfg.misalignPolicy = .literal) : s.cfgRefusal w off = none := by
  rcases ha with ha | ha <;> simp [State.cfgRefusal, up, aligned_eq, ha]

/-- R152, R310: a read command that a free port takes and nothing turns away. -/
theorem exec_cfgrdInstr {s : State} {w : Width} {off : BitVec 12} (hb : s.busy = false) (up : s.ls = .up)
    (ha : off.toNat % widthBytes w = 0 ∨ s.cfg.misalignPolicy = .literal) (wdata : Word) (bus devfn : Byte) :
    exec (cfgrdInstr w wdata bus devfn off) s = .next
      (((s.accept (cfgrdOp w) wdata bus devfn off).cfgRead w bus devfn off).complete statusOk 0
        (laneExtract ((s.accept (cfgrdOp w) wdata bus devfn off).cfgRead w bus devfn off).work.dw off w)) := by
  have goes := State.cfgRefusal_none (s := s.accept (cfgrdOp w) wdata bus devfn off) up ha
  have body : exec (cfgrdInstr w wdata bus devfn off) s =
      .next (s.onPort fun s => (s.accept (cfgrdOp w) wdata bus devfn off).cfgrdBody w bus devfn off) := by cases w <;> rfl
  rw [body, State.onPort_free hb, State.cfgrdBody, goes]

/-- R152, R310: a write command that a free port takes and nothing turns away. -/
theorem exec_cfgwrInstr {s : State} {w : Width} {off : BitVec 12} (hb : s.busy = false) (up : s.ls = .up)
    (ha : off.toNat % widthBytes w = 0 ∨ s.cfg.misalignPolicy = .literal) (wdata : Word) (bus devfn : Byte) :
    exec (cfgwrInstr w wdata bus devfn off) s = .next
      (((s.accept (cfgwrOp w) wdata bus devfn off).cfgWrite w bus devfn off wdata).complete statusOk 0 0) := by
  have goes := State.cfgRefusal_none (s := s.accept (cfgwrOp w) wdata bus devfn off) up ha
  have body : exec (cfgwrInstr w wdata bus devfn off) s =
      .next (s.onPort fun s => (s.accept (cfgwrOp w) wdata bus devfn off).cfgwrBody w bus devfn off wdata) := by cases w <;> rfl
  rw [body, State.onPort_free hb, State.cfgwrBody, goes]

/-- R165: x[SH] as a number of bits. -/
theorem laneShift_eq (off : BitVec 12) : laneShift off = BitVec.ofNat 5 (8 * (off.toNat % 4)) := by
  rw [← laneShift_toNat, BitVec.ofNat_toNat, BitVec.setWidth_eq]

/-- Settles O26: the closed form of the read, and the lanes that it answers. -/
theorem cfgrdReadsTheAddressedLanes : Obligations.CfgrdReadsTheAddressedLanes := by
  intro s w wdata bus devfn off wf hb up ha
  rw [exec_cfgrdInstr hb up ha, State.cfgRead_eq (s := s.accept (cfgrdOp w) wdata bus devfn off) wf rfl, laneExtract_eq, laneShift_eq]
  simp only [State.complete, State.afterDraws, State.accept, hb]
  rfl

/-- R315 to R317: the dword that a write puts on CFGDATA, `old` being the one at the location. -/
def writtenDword (w : Width) (off : BitVec 12) (old v : Word) : Word :=
  if w = .dword then v else laneMerge old off w v

/-- R319, R320: the bytes of the dword written. -/
theorem laneByte_writtenDword (w : Width) (off : BitVec 12) (old v : Word) {k : Nat} (hk : k < 4) :
    laneByte (writtenDword w off old v) k = writtenByte w off old v k := by
  by_cases hw : w = .dword
  · have covered : covers .dword off k = true := by simp [covers, firstLane, widthBytes, hk]
    subst hw
    rw [writtenByte, if_pos covered]
    rfl
  · rw [writtenDword, if_neg hw, laneMerge_laneByte old v off w hw k hk]

/-- R315 to R317: the body of a configuration write of any width; x[DW], x[SH] and x[LM] are as it leaves them. -/
theorem State.cfgWrite_eq {s : State} (wf : s.cfg.Wf) (w : Width) (bus devfn : Byte) (off : BitVec 12) (v : Word) :
    s.cfgWrite w bus devfn off v =
      { s.afterDraws (if w ≠ .dword ∧ rootHdrReg s.cfg (locOf bus devfn off) = none ∧ locOf bus devfn off ∉ s.plain then 1 else 0) with
        work := { s.work with
          tok := token s.cfg bus devfn off
          dw := (s.cfgWrite w bus devfn off v).work.dw
          sh := (s.cfgWrite w bus devfn off v).work.sh
          lm := (s.cfgWrite w bus devfn off v).work.lm }
        br := { s.br with cfgaddr := token s.cfg bus devfn off }
        ans := if w = .dword then s.ans else s.dwordAt (locOf bus devfn off)
        mem := if s.isPlain (locOf bus devfn off) then
            Memory.writeDword s.unlisted s.mem (locOf bus devfn off) (writtenDword w off (s.dwordAt (locOf bus devfn off)) v)
          else s.mem
        hist := s.hist ++ (if w = .dword then
            [.brWr s.cfg.offCfgaddr (token s.cfg bus devfn off), .brWr s.cfg.offCfgdata v]
          else
            [.brWr s.cfg.offCfgaddr (token s.cfg bus devfn off), .brRd s.cfg.offCfgdata (s.dwordAt (locOf bus devfn off)),
             .brWr s.cfg.offCfgdata (writtenDword w off (s.dwordAt (locOf bus devfn off)) v)]) } := by
  by_cases hw : w = .dword
  · subst hw
    rw [State.cfgWrite_dword wf rfl]
    simp [State.afterDraws, writtenDword]
  · rw [State.cfgWrite_narrow wf rfl w hw]
    simp [State.afterDraws, writtenDword, hw]

/-- A byte of configuration space, by the store and the reset number. -/
theorem State.cfgByte_of_mem {s t : State} {m : List Host.Cell} (hm : t.mem = m) (he : t.epoch = s.epoch) (a : Nat) :
    t.cfgByte a = Memory.read s.unlisted m a := by
  rw [State.cfgByte, State.unlisted_eq, State.unlisted_eq, hm, he]

/-- R67, R315 to R317: a write stores its dword where the location is plain. -/
theorem State.cfgWrite_mem {s : State} (wf : s.cfg.Wf) (w : Width) (bus devfn : Byte) (off : BitVec 12) (v : Word) :
    (s.cfgWrite w bus devfn off v).mem = if s.isPlain (locOf bus devfn off) then
        Memory.writeDword s.unlisted s.mem (locOf bus devfn off) (writtenDword w off (s.dwordAt (locOf bus devfn off)) v)
      else s.mem :=
  congrArg State.mem (State.cfgWrite_eq wf w bus devfn off v)

/-- R320: the bytes of configuration space after a write: the covered lanes of a plain location take the value's, every other byte is kept. -/
theorem State.cfgWrite_cfgByte {s : State} (wf : s.cfg.Wf) (hm : s.memWf = true) (w : Width) (bus devfn : Byte) (off : BitVec 12) (v : Word)
    (a : Nat) : (s.cfgWrite w bus devfn off v).cfgByte a =
      if s.isPlain (locOf bus devfn off) ∧ a / 4 = (locOf bus devfn off).toNat ∧ covers w off (a % 4) = true
      then laneByte v (a % 4 - firstLane w off) else s.cfgByte a := by
  rw [State.cfgByte_of_mem (s := s) (State.cfgWrite_mem wf w bus devfn off v) (by simp)]
  by_cases plain : s.isPlain (locOf bus devfn off)
  · rw [if_pos plain, Memory.read_writeDword_lane _ _ _ _ _ hm]
    by_cases here : a / 4 = (locOf bus devfn off).toNat
    · have lane : a % 4 < 4 := Nat.mod_lt _ (by decide)
      have old : laneByte (s.dwordAt (locOf bus devfn off)) (a % 4) = s.cfgByte a := by
        rw [State.laneByte_dwordAt plain _ lane, ← here, Nat.div_add_mod]
      rw [if_pos here, laneByte_writtenDword _ _ _ _ lane, writtenByte, old]
      exact if_congr ((and_iff_right plain).trans (and_iff_right here)).symm rfl rfl
    · rw [if_neg here, if_neg fun covered => here covered.2.1]
      rfl
  · rw [if_neg plain, if_neg fun covered => plain covered.1]
    rfl

/-- Settles O27: the closed form of the write, and the bytes that it stores. -/
theorem cfgwrWritesTheAddressedLanes : Obligations.CfgwrWritesTheAddressedLanes := by
  intro s w wdata bus devfn off wf hm hb up ha
  have closed := State.cfgWrite_eq (s := s.accept (cfgwrOp w) wdata bus devfn off) wf w bus devfn off wdata
  refine ⟨_, writtenDword w off (s.dwordAt (locOf bus devfn off)) wdata, exec_cfgwrInstr hb up ha wdata bus devfn,
    fun k hk => laneByte_writtenDword w off _ wdata hk, congrArg State.hist closed,
    State.cfgWrite_cfgByte (s := s.accept (cfgwrOp w) wdata bus devfn off) wf hm w bus devfn off wdata, ?_, congrArg State.work closed⟩
  rw [closed]
  simp only [State.complete, State.afterDraws, hb]
  rfl

/-- R104: an aligned access starts at the lane of its offset and stays inside the dword. -/
theorem firstLane_of_aligned {w : Width} {off : BitVec 12} (ha : off.toNat % widthBytes w = 0) :
    firstLane w off = off.toNat % 4 ∧ off.toNat % 4 + widthBytes w ≤ 4 := by
  cases w with
  | byte => exact ⟨rfl, Nat.mod_lt _ (by decide)⟩
  | half =>
    have even : off.toNat % 2 = 0 := ha
    exact ⟨rfl, by simp only [widthBytes]; omega⟩
  | dword =>
    have whole : off.toNat % 4 = 0 := ha
    exact ⟨whole.symm, by simp only [widthBytes]; omega⟩

/-- R102: the bits of a byte of a dword. -/
theorem laneByte_getLsbD (v : Word) (k : Nat) {j : Nat} (hj : j < 8) : (laneByte v k).getLsbD j = v.getLsbD (8 * k + j) := by
  rw [laneByte, BitVec.getLsbD_extractLsb', decide_eq_true hj, Bool.true_and]

/-- R318, R320: `n` bytes of one dword, from lane `f` on, that are the low bytes of another are its low bytes as a number. -/
theorem lanes_eq_of_laneByte {d v : Word} {f n : Nat} (h : ∀ k, k < n → laneByte d (f + k) = laneByte v k) :
    d.toNat / 2 ^ (8 * f) % 2 ^ (8 * n) = v.toNat % 2 ^ (8 * n) := by
  refine Nat.eq_of_testBit_eq fun i => ?_
  rw [Nat.testBit_mod_two_pow, Nat.testBit_mod_two_pow, Nat.testBit_div_two_pow]
  by_cases hi : i < 8 * n
  · have bit := congrArg (BitVec.getLsbD · (i % 8)) (h (i / 8) (by omega))
    simp only [laneByte_getLsbD _ _ (Nat.mod_lt i (by decide : 0 < 8)), Nat.div_add_mod] at bit
    rw [show 8 * (f + i / 8) + i % 8 = i + 8 * f by omega] at bit
    exact congrArg _ bit
  · simp [hi]

/-- Settles O28: the bytes that the write leaves are the lanes that the read answers. -/
theorem roundTripAndLaneIsolation : Obligations.RoundTripAndLaneIsolation := by
  intro s w v v' bus devfn off wf hm hb up plain ha
  obtain ⟨first, inside⟩ := firstLane_of_aligned ha
  obtain ⟨t, -, write, -, -, bytes, frame, -⟩ := cfgwrWritesTheAddressedLanes s w v bus devfn off wf hm hb up (.inl ha)
  have cfg : t.cfg = s.cfg := (congrArg State.cfg frame).trans rfl
  have plain' : t.isPlain (locOf bus devfn off) := by
    have same : t.plain = s.plain := (congrArg State.plain frame).trans rfl
    rwa [State.isPlain, cfg, same]
  have read := cfgrdReadsTheAddressedLanes t w v' bus devfn off (cfg ▸ wf) ((congrArg State.busy frame).trans hb)
    ((congrArg State.ls frame).trans up) (.inl ha)
  refine ⟨t, _, write, read, ?_, fun a outside => ?_⟩
  · have lanes : ∀ k, k < widthBytes w → laneByte (t.dwordAt (locOf bus devfn off)) (firstLane w off + k) = laneByte v k := by
      intro k hk
      have covered : covers w off ((4 * (locOf bus devfn off).toNat + (firstLane w off + k)) % 4) = true := by
        simp only [covers, Bool.and_eq_true, decide_eq_true_eq]
        omega
      rw [State.laneByte_dwordAt plain' _ (by omega), bytes, if_pos ⟨plain, by omega, covered⟩]
      congr 1
      omega
    simp only [lanes_eq_of_laneByte lanes]
  · have kept : ¬(s.isPlain (locOf bus devfn off) ∧ a / 4 = (locOf bus devfn off).toNat ∧ covers w off (a % 4) = true) := by
      simp only [covers, Bool.and_eq_true, decide_eq_true_eq]
      omega
    exact (bytes a).trans (if_neg kept)

end Sys2Proof.Machine
end

section
/-! PROOF. The fixup of the root function, the five accesses of HOUSEKEEP state by state, the branches of MAPIRQ in UP, and the statements O29 to
O33. -/

namespace Sys2Proof.Machine

/-- Settles O33: the two halves of ROOT_FIXUP, one after the other. -/
theorem rootFixupOpensTheInboundBar : Obligations.RootFixupOpensTheInboundBar := by
  intro s wf
  have closed : s.rootFixup = _ := State.zeroBase_eq (s := s.openInbound) wf rfl
  refine congrArg Host.Outcome.next (closed.trans ?_)
  rw [State.openInbound_eq wf rfl]
  simp only [List.append_assoc, List.cons_append, List.nil_append]

/-- R310, R417: what configuration accesses may leave of `s`: the requests `es`, the token `tok` in CFGADDR, bytes stored at `locs` alone, and
beside these the working registers, the answer channel and the draws taken. -/
structure State.AccessesConfig (s : State) (locs : List (BitVec 26)) (tok : Word) (es : List Event) (t : State) : Prop where
  hist : t.hist = s.hist ++ es
  bytes : ∀ a, BitVec.ofNat 26 (a / 4) ∉ locs → t.cfgByte a = s.cfgByte a
  frame : t = { s with
    work := t.work
    br := { s.br with cfgaddr := tok }
    mem := t.mem
    hist := t.hist
    ans := t.ans
    draws := t.draws
    drawCount := t.drawCount }

namespace State.AccessesConfig

/-- Accesses one after the other: the last token stands in CFGADDR. -/
theorem trans {s t u : State} {ls ls' : List (BitVec 26)} {tok tok' : Word} {es es' : List Event} (h : s.AccessesConfig ls tok es t)
    (k : t.AccessesConfig ls' tok' es' u) : s.AccessesConfig (ls ++ ls') tok' (es ++ es') u where
  hist := by rw [k.hist, h.hist, List.append_assoc]
  bytes a out := by
    rw [List.mem_append, not_or] at out
    exact (k.bytes a out.2).trans (h.bytes a out.1)
  frame := k.frame.trans (by rw [h.frame])

/-- A working register written between two accesses. -/
theorem setWork {s t : State} {ls : List (BitVec 26)} {tok : Word} {es : List Event} (h : s.AccessesConfig ls tok es t) (r : Work) :
    s.AccessesConfig ls tok es { t with work := r } :=
  ⟨h.hist, h.bytes, by rw [h.frame]⟩

/-- R312, R313, R314: a read stores nothing. -/
theorem cfgRead {s : State} {c : Cfg} (wf : c.Wf) (hc : s.cfg = c) (w : Width) (bus devfn : Byte) (off : BitVec 12) :
    s.AccessesConfig [] (token c bus devfn off)
      [.brWr c.offCfgaddr (token c bus devfn off), .brRd c.offCfgdata (s.dwordAt (locOf bus devfn off))] (s.cfgRead w bus devfn off) := by
  rw [State.cfgRead_eq wf hc]
  exact ⟨rfl, fun _ _ => rfl, rfl⟩

/-- R315, R316: a narrow write stores at its location alone. -/
theorem cfgWrite {s : State} {c : Cfg} (wf : c.Wf) (hc : s.cfg = c) (hm : s.memWf = true) {w : Width} (hw : w ≠ .dword) (bus devfn : Byte)
    (off : BitVec 12) (v : Word) :
    s.AccessesConfig [locOf bus devfn off] (token c bus devfn off)
      [.brWr c.offCfgaddr (token c bus devfn off), .brRd c.offCfgdata (s.dwordAt (locOf bus devfn off)),
       .brWr c.offCfgdata (laneMerge (s.dwordAt (locOf bus devfn off)) off w v)] (s.cfgWrite w bus devfn off v) := by
  obtain ⟨hist, -, bytes⟩ := State.cfgWrite_narrow_spec wf hc hm w hw bus devfn off v
  exact ⟨hist, fun a out => bytes a (by simpa using out), by rw [State.cfgWrite_narrow wf hc w hw]; rfl⟩

end State.AccessesConfig

/-- R344: the three enable bits of the command register. -/
abbrev enableBits (c : Cfg) : Half := c.cmdMaster ||| c.cmdIo ||| c.cmdMemory

section
variable (s : State) (bus devfn irq : Byte)

/-- R344: the cache-line size is written. -/
def State.lineSizeSet : State := s.cfgWrite .byte bus devfn s.cfg.pciCacheLineSize (s.cfg.clsValue.zeroExtend 32)

/-- R344: then the latency timer. -/
def State.latencySet : State :=
  (s.lineSizeSet bus devfn).cfgWrite .byte bus devfn s.cfg.pciLatencyTimer (s.cfg.latValue.zeroExtend 32)

/-- R344: then the command register is read. -/
def State.commandRead : State := (s.latencySet bus devfn).cfgRead .half bus devfn s.cfg.pciCommand

/-- R344: the command register as it was read. -/
def State.commandFound : Word :=
  laneExtract ((s.latencySet bus devfn).dwordAt (locOf bus devfn s.cfg.pciCommand)) s.cfg.pciCommand .half

/-- R344: the command register written back with the three enable bits. -/
def State.commandSet : State :=
  (s.commandRead bus devfn).cfgWrite .half bus devfn s.cfg.pciCommand
    (s.commandFound bus devfn ||| (enableBits s.cfg).zeroExtend 32)

/-- R344: last, the interrupt line. -/
def State.interruptLineSet : State :=
  (s.commandSet bus devfn).cfgWrite .byte bus devfn s.cfg.pciInterruptLine (irq.zeroExtend 32)

@[simp] theorem State.lineSizeSet_cfg : (s.lineSizeSet bus devfn).cfg = s.cfg := by simp [State.lineSizeSet]
@[simp] theorem State.latencySet_cfg : (s.latencySet bus devfn).cfg = s.cfg := by simp [State.latencySet]
@[simp] theorem State.commandRead_cfg : (s.commandRead bus devfn).cfg = s.cfg := by simp [State.commandRead]
@[simp] theorem State.commandSet_cfg : (s.commandSet bus devfn).cfg = s.cfg := by simp [State.commandSet]

@[simp] theorem State.lineSizeSet_plain : (s.lineSizeSet bus devfn).plain = s.plain := by simp [State.lineSizeSet]
@[simp] theorem State.latencySet_plain : (s.latencySet bus devfn).plain = s.plain := by simp [State.latencySet]
@[simp] theorem State.commandRead_plain : (s.commandRead bus devfn).plain = s.plain := by simp [State.commandRead]
@[simp] theorem State.commandSet_plain : (s.commandSet bus devfn).plain = s.plain := by simp [State.commandSet]

theorem State.lineSizeSet_memWf {s : State} (h : s.memWf = true) : (s.lineSizeSet bus devfn).memWf = true :=
  State.cfgWrite_mem_wf _ _ _ _ _ _ h

theorem State.latencySet_memWf {s : State} (h : s.memWf = true) : (s.latencySet bus devfn).memWf = true :=
  State.cfgWrite_mem_wf _ _ _ _ _ _ (State.lineSizeSet_memWf bus devfn h)

theorem State.commandRead_memWf {s : State} (h : s.memWf = true) : (s.commandRead bus devfn).memWf = true :=
  State.cfgRead_mem_wf _ _ _ _ _ (State.latencySet_memWf bus devfn h)

theorem State.commandSet_memWf {s : State} (h : s.memWf = true) : (s.commandSet bus devfn).memWf = true :=
  State.cfgWrite_mem_wf _ _ _ _ _ _ (State.commandRead_memWf bus devfn h)

/-- R36, R344: x[CMDV] written. -/
def State.setCmdv (cmdv : Half) : State := { s with work := { s.work with cmdv := cmdv } }

/-- x[CMDV] is no byte of configuration space. -/
theorem State.setCmdv_cfgByte (cmdv : Half) (a : Nat) : (s.setCmdv cmdv).cfgByte a = s.cfgByte a := rfl

/-- No configuration write looks at x[CMDV]. -/
theorem State.setCmdv_cfgWrite (cmdv : Half) (w : Width) (off : BitVec 12) (v : Word) :
    (s.setCmdv cmdv).cfgWrite w bus devfn off v = (s.cfgWrite w bus devfn off v).setCmdv cmdv := by
  cases w <;> rfl

/-- R344: the read of the command register, the third access. -/
theorem State.latencySet_readCommand {s : State} (wf : s.cfg.Wf) :
    (s.latencySet bus devfn).readCommand bus devfn =
      (s.commandRead bus devfn).setCmdv ((s.commandFound bus devfn).extractLsb' 0 16) := by
  have dword : (s.commandRead bus devfn).work.dw = (s.latencySet bus devfn).dwordAt (locOf bus devfn s.cfg.pciCommand) := by
    rw [State.commandRead, State.cfgRead_eq wf (State.latencySet_cfg s bus devfn)]
  rw [State.readCommand, State.latencySet_cfg, State.commandFound, ← dword]
  rfl

/-- R344: HOUSEKEEP is its five accesses, with the command register as read left in x[CMDV]. -/
theorem State.housekeep_eq {s : State} (wf : s.cfg.Wf) :
    s.housekeep bus devfn irq = (s.interruptLineSet bus devfn irq).setCmdv ((s.commandFound bus devfn).extractLsb' 0 16) := by
  have unfolded : s.housekeep bus devfn irq =
      (((s.latencySet bus devfn).readCommand bus devfn).cfgWrite .half bus devfn s.cfg.pciCommand
        ((Cfg.commandValue s.cfg ((s.latencySet bus devfn).readCommand bus devfn).work.cmdv).zeroExtend 32)).cfgWrite
        .byte bus devfn s.cfg.pciInterruptLine (irq.zeroExtend 32) := rfl
  have cmdv : ((s.latencySet bus devfn).readCommand bus devfn).work.cmdv = (s.commandFound bus devfn).extractLsb' 0 16 := by
    rw [State.latencySet_readCommand _ _ wf]
    rfl
  rw [unfolded, cmdv, State.commandFound, commandValue_zeroExtend, ← State.commandFound, State.latencySet_readCommand _ _ wf,
    State.setCmdv_cfgWrite, State.setCmdv_cfgWrite]
  rfl

end

/-- R344: HOUSEKEEP is five accesses, fourteen requests, at its four dwords. -/
theorem State.AccessesConfig.housekeep {s : State} (wf : s.cfg.Wf) (hm : s.memWf = true) (bus devfn irq : Byte) :
    s.AccessesConfig (houseLocs s.cfg bus devfn) (token s.cfg bus devfn s.cfg.pciInterruptLine)
      (houseEvents s.cfg bus devfn irq (s.dwordAt (locOf bus devfn s.cfg.pciCacheLineSize))
        ((s.lineSizeSet bus devfn).dwordAt (locOf bus devfn s.cfg.pciLatencyTimer))
        ((s.latencySet bus devfn).dwordAt (locOf bus devfn s.cfg.pciCommand))
        ((s.commandRead bus devfn).dwordAt (locOf bus devfn s.cfg.pciCommand))
        ((s.commandSet bus devfn).dwordAt (locOf bus devfn s.cfg.pciInterruptLine)))
      (s.housekeep bus devfn irq) := by
  have lineSize := cfgWrite wf rfl hm (w := .byte) (by decide) bus devfn s.cfg.pciCacheLineSize (s.cfg.clsValue.zeroExtend 32)
  have latency := cfgWrite wf (State.lineSizeSet_cfg s bus devfn) (State.lineSizeSet_memWf bus devfn hm) (w := .byte) (by decide) bus devfn
    s.cfg.pciLatencyTimer (s.cfg.latValue.zeroExtend 32)
  have command := cfgRead wf (State.latencySet_cfg s bus devfn) .half bus devfn s.cfg.pciCommand
  have enabled := cfgWrite wf (State.commandRead_cfg s bus devfn) (State.commandRead_memWf bus devfn hm) (w := .half) (by decide) bus devfn
    s.cfg.pciCommand (s.commandFound bus devfn ||| (enableBits s.cfg).zeroExtend 32)
  have line := cfgWrite wf (State.commandSet_cfg s bus devfn) (State.commandSet_memWf bus devfn hm) (w := .byte) (by decide) bus devfn
    s.cfg.pciInterruptLine (irq.zeroExtend 32)
  rw [State.housekeep_eq _ _ _ wf]
  exact ((((lineSize.trans latency).trans command).trans enabled).trans line).setWork _

/-- Settles O31: the five accesses, and each read under the accesses before it. -/
theorem housekeepIssuesFourteenRequests : Obligations.HousekeepIssuesFourteenRequests := by
  intro s bus devfn irq wf hm
  obtain ⟨hist, bytes, frame⟩ := State.AccessesConfig.housekeep wf hm bus devfn irq
  exact ⟨_, s.lineSizeSet bus devfn, s.latencySet bus devfn, s.commandRead bus devfn, s.commandSet bus devfn, _, _, _, _, _,
    rfl, hist, rfl, rfl, rfl, rfl, rfl, rfl, rfl, rfl, rfl, bytes, frame⟩

/-- R67: the bytes of one function, by offset. -/
theorem cfgByteAddr_eq (bus devfn : Byte) (off : BitVec 12) :
    cfgByteAddr bus devfn off = 4096 * (256 * bus.toNat + devfn.toNat) + off.toNat := by
  have hoff := off.isLt
  rw [cfgByteAddr, locOf, toNat_append_add, toNat_append_add, BitVec.extractLsb'_toNat, Nat.shiftRight_eq_div_pow]
  omega

/-- R320: an aligned access of a plain location covers as many bytes as its width has, from the address of its offset on. -/
theorem State.cfgWrite_cfgByte_plain {s : State} {c : Cfg} (wf : c.Wf) (hc : s.cfg = c) (hm : s.memWf = true) {w : Width}
    {bus devfn : Byte} {off : BitVec 12} (plain : s.isPlain (locOf bus devfn off)) (ha : off.toNat % widthBytes w = 0) (v : Word) (a : Nat) :
    (s.cfgWrite w bus devfn off v).cfgByte a =
      if cfgByteAddr bus devfn off ≤ a ∧ a < cfgByteAddr bus devfn off + widthBytes w
      then laneByte v (a - cfgByteAddr bus devfn off) else s.cfgByte a := by
  obtain ⟨first, inside⟩ := firstLane_of_aligned ha
  have here : (s.isPlain (locOf bus devfn off) ∧ a / 4 = (locOf bus devfn off).toNat ∧ covers w off (a % 4) = true) ↔
      cfgByteAddr bus devfn off ≤ a ∧ a < cfgByteAddr bus devfn off + widthBytes w := by
    rw [and_iff_right plain]
    simp only [covers, first, Bool.and_eq_true, decide_eq_true_eq, cfgByteAddr]
    omega
  rw [State.cfgWrite_cfgByte (hc ▸ wf) hm]
  by_cases covered : cfgByteAddr bus devfn off ≤ a ∧ a < cfgByteAddr bus devfn off + widthBytes w
  · obtain ⟨-, dword, -⟩ := here.mpr covered
    rw [if_pos (here.mpr covered), if_pos covered, first]
    congr 1
    simp only [cfgByteAddr]
    omega
  · rw [if_neg (mt here.mp covered), if_neg covered]

/-- R315: a byte written to a plain location. -/
theorem State.cfgWrite_byte_cfgByte {s : State} {c : Cfg} (wf : c.Wf) (hc : s.cfg = c) (hm : s.memWf = true) {bus devfn : Byte}
    {off : BitVec 12} (plain : s.isPlain (locOf bus devfn off)) (v : Byte) (a : Nat) :
    (s.cfgWrite .byte bus devfn off (v.zeroExtend 32)).cfgByte a = if a = cfgByteAddr bus devfn off then v else s.cfgByte a := by
  have here : cfgByteAddr bus devfn off ≤ a ∧ a < cfgByteAddr bus devfn off + widthBytes .byte ↔ a = cfgByteAddr bus devfn off := by
    simp only [widthBytes]
    omega
  rw [State.cfgWrite_cfgByte_plain wf hc hm plain (Nat.mod_one _), ite_cond_congr (propext here)]
  refine ite_congr rfl (fun e => ?_) fun _ => rfl
  rw [e, Nat.sub_self]
  exact (BitVec.extractLsb'_setWidth_of_le (show 0 + 8 ≤ 32 by decide)).trans BitVec.extractLsb'_eq_self

/-- R318, R344: the bytes of a half-word as read, with bits set in it. -/
theorem laneByte_laneExtract_or (d : Word) (off : BitVec 12) (m : Half) {k : Nat} (hk : k < 2) :
    laneByte (laneExtract d off .half ||| m.zeroExtend 32) k = laneByte d (off.toNat % 4 + k) ||| m.extractLsb' (8 * k) 8 := by
  ext i hi
  have low : (laneMask .half).getLsbD (8 * k + i) = true := by
    rw [laneMask_getLsbD, decide_eq_true_eq, widthBytes]
    omega
  have shifted : (laneExtract d off .half).getLsbD (8 * k + i) = (laneByte d (off.toNat % 4 + k)).getLsbD i := by
    have masked : laneExtract d off .half = (d >>> (laneShift off).toNat) &&& laneMask .half := rfl
    rw [masked, BitVec.getLsbD_and, low, Bool.and_true, BitVec.getLsbD_ushiftRight, laneShift_toNat, laneByte_getLsbD _ _ hi, Nat.mul_add,
      Nat.add_assoc]
  rw [← BitVec.getLsbD_eq_getElem hi, ← BitVec.getLsbD_eq_getElem hi, laneByte_getLsbD _ _ hi, BitVec.getLsbD_or, BitVec.getLsbD_or,
    shifted]
  simp [hi, show 8 * k + i < 32 by omega]

/-- R67, R326: which locations are plain is no matter of what was written. -/
theorem State.isPlain_congr {s t : State} {loc : BitVec 26} (h : s.isPlain loc) (hc : t.cfg = s.cfg := by simp)
    (hp : t.plain = s.plain := by simp) : t.isPlain loc := by
  rwa [State.isPlain, hc, hp]

/-- R17 (j): the command register is at an even offset. -/
theorem commandOffset_even {c : Cfg} (h : c.Wf) : c.pciCommand.toNat % 2 = 0 := by
  obtain ⟨-, -, -, -, -, -, -, -, -, -, even, -⟩ := h
  rw [← Nat.and_one_is_mod]
  exact congrArg BitVec.toNat even

section
variable {s : State} {bus devfn : Byte}

/-- R344: the cache-line size and the latency timer, byte by byte. -/
theorem State.latencySet_cfgByte (wf : s.cfg.Wf) (hm : s.memWf = true) (plain : ∀ loc ∈ houseLocs s.cfg bus devfn, s.isPlain loc) (a : Nat) :
    (s.latencySet bus devfn).cfgByte a =
      if a = cfgByteAddr bus devfn s.cfg.pciLatencyTimer then s.cfg.latValue
      else if a = cfgByteAddr bus devfn s.cfg.pciCacheLineSize then s.cfg.clsValue
      else s.cfgByte a := by
  have line : s.isPlain (locOf bus devfn s.cfg.pciCacheLineSize) := plain _ (by simp [houseLocs])
  have latency : s.isPlain (locOf bus devfn s.cfg.pciLatencyTimer) := plain _ (by simp [houseLocs])
  rw [State.latencySet,
    State.cfgWrite_byte_cfgByte wf (by simp) (State.lineSizeSet_memWf bus devfn hm) (State.isPlain_congr latency), State.lineSizeSet,
    State.cfgWrite_byte_cfgByte wf rfl hm line]

/-- R344: the command register, byte by byte: as it was, with the enable bits. -/
theorem State.commandSet_cfgByte (wf : s.cfg.Wf) (hm : s.memWf = true) (plain : s.isPlain (locOf bus devfn s.cfg.pciCommand)) (a : Nat) :
    (s.commandSet bus devfn).cfgByte a =
      if a = cfgByteAddr bus devfn s.cfg.pciCommand then
        (s.latencySet bus devfn).cfgByte a ||| (enableBits s.cfg).extractLsb' 0 8
      else if a = cfgByteAddr bus devfn s.cfg.pciCommand + 1 then
        (s.latencySet bus devfn).cfgByte a ||| (enableBits s.cfg).extractLsb' 8 8
      else (s.latencySet bus devfn).cfgByte a := by
  have even := commandOffset_even wf
  have stored : (s.commandRead bus devfn).cfgByte a = (s.latencySet bus devfn).cfgByte a :=
    (State.AccessesConfig.cfgRead wf (State.latencySet_cfg s bus devfn) .half bus devfn s.cfg.pciCommand).bytes a (by simp)
  have found : ∀ k, k < 2 →
      laneByte (s.commandFound bus devfn ||| (enableBits s.cfg).zeroExtend 32) k =
      (s.latencySet bus devfn).cfgByte (cfgByteAddr bus devfn s.cfg.pciCommand + k) |||
        (enableBits s.cfg).extractLsb' (8 * k) 8 := by
    intro k hk
    rw [State.commandFound, laneByte_laneExtract_or _ _ _ hk,
      State.laneByte_dwordAt (State.isPlain_congr plain) _ (by omega), ← Nat.add_assoc]
    rfl
  rw [State.commandSet, State.cfgWrite_cfgByte_plain (w := .half) wf (by simp) (State.commandRead_memWf bus devfn hm)
    (State.isPlain_congr plain) even, stored, show widthBytes .half = 2 from rfl]
  by_cases low : a = cfgByteAddr bus devfn s.cfg.pciCommand
  · rw [if_pos (by omega), if_pos low, low, Nat.sub_self]
    exact found 0 (by decide)
  by_cases high : a = cfgByteAddr bus devfn s.cfg.pciCommand + 1
  · rw [if_pos (by omega), if_neg low, if_pos high, high, Nat.add_sub_cancel_left]
    exact found 1 (by decide)
  · rw [if_neg (by omega), if_neg low, if_neg high]

end

/-- Settles O32: of the five addresses, which are distinct, each access stores at its own. -/
theorem housekeepProgramsAPlainFunction : Obligations.HousekeepProgramsAPlainFunction := by
  intro s bus devfn irq wf hm distinct plain
  have command : s.isPlain (locOf bus devfn s.cfg.pciCommand) := plain _ (by simp [houseLocs])
  have line : s.isPlain (locOf bus devfn s.cfg.pciInterruptLine) := plain _ (by simp [houseLocs])
  refine ⟨s.housekeep bus devfn irq, rfl, fun a => ?_⟩
  rw [State.housekeep_eq bus devfn irq wf, State.setCmdv_cfgByte, State.interruptLineSet,
    State.cfgWrite_byte_cfgByte wf (by simp) (State.commandSet_memWf bus devfn hm) (State.isPlain_congr line),
    State.commandSet_cfgByte wf hm command, State.latencySet_cfgByte wf hm plain]
  simp only [cfgByteAddr_eq, Nat.add_assoc]
  generalize 4096 * (256 * bus.toNat + devfn.toNat) = base
  simp only [List.nodup_cons, List.mem_cons, List.not_mem_nil, not_or, or_false, not_false_eq_true, and_true, List.nodup_nil] at distinct
  by_cases atLineSize : a = base + s.cfg.pciCacheLineSize.toNat
  · rw [if_neg (by omega), if_neg (by omega), if_neg (by omega), if_neg (by omega), if_pos atLineSize, if_pos atLineSize]
  rw [if_neg atLineSize, if_neg atLineSize]
  by_cases atLatency : a = base + s.cfg.pciLatencyTimer.toNat
  · rw [if_neg (by omega), if_neg (by omega), if_neg (by omega), if_pos atLatency, if_pos atLatency]
  rw [if_neg atLatency, if_neg atLatency]
  by_cases atLine : a = base + s.cfg.pciInterruptLine.toNat
  · rw [if_pos atLine, if_neg (by omega), if_neg (by omega), if_pos atLine]
  · rw [if_neg atLine, if_neg atLine]

/-- R155: the slot of a devfn byte, as a number. -/
theorem slotOf_toNat (devfn : Byte) : (slotOf devfn).toNat = devfn.toNat / 8 := by
  have := devfn.isLt
  rw [slotOf, BitVec.extractLsb'_toNat, Nat.shiftRight_eq_div_pow]
  omega

/-- R340: slot 0 of a bus, in numbers. -/
theorem bus_slot_zero_iff (bus b devfn : Byte) : bus.toNat = b.toNat ∧ devfn.toNat / 8 = 0 ↔ bus = b ∧ slotOf devfn = 0 := by
  rw [← slotOf_toNat, BitVec.toNat_inj]
  exact and_congr_right fun _ => BitVec.toNat_inj (y := 0#5)

/-- R343: the argument of LOG 3, as a number. -/
theorem unexpected_arg (bus devfn : Byte) :
    ((bus.zeroExtend 32 <<< 8) ||| (slotOf devfn).zeroExtend 32 : Word) = BitVec.ofNat 32 (256 * bus.toNat + devfn.toNat / 8) := by
  have hbus := bus.isLt
  have hdevfn := devfn.isLt
  apply BitVec.eq_of_toNat_eq
  rw [BitVec.toNat_or, BitVec.toNat_shiftLeft, BitVec.toNat_setWidth, BitVec.toNat_setWidth, slotOf_toNat, BitVec.toNat_ofNat,
    Nat.shiftLeft_eq, Nat.mod_eq_of_lt (by omega), Nat.mod_eq_of_lt (by omega), Nat.mod_eq_of_lt (by omega), Nat.mod_eq_of_lt (by omega),
    ← Nat.shiftLeft_eq, ← Nat.shiftLeft_add_eq_or_of_lt (by omega), Nat.shiftLeft_eq, Nat.mul_comm]

/-- R340, R345: MAPIRQ that a free port takes in UP. -/
theorem exec_mapirq {s : State} (hb : s.busy = false) (up : s.ls = .up) (wdata : Word) (bus devfn : Byte) (off : BitVec 12) :
    exec (.mapirq wdata bus devfn off) s = .next ((s.accept 0x2 wdata bus devfn off).mapirqRun bus (slotOf devfn)) := by
  have goes : (s.accept 0x2 wdata bus devfn off).mapirqBody bus (slotOf devfn) =
    (s.accept 0x2 wdata bus devfn off).mapirqRun bus (slotOf devfn) := if_neg (not_not_intro up)
  exact congrArg Host.Outcome.next ((State.onPort_free hb _).trans goes)

section
variable (s : State) {bus : Byte} {slot : BitVec 5}

/-- R341, R292: MAPIRQ(0,0) up to its pause. -/
theorem State.mapirqRun_root (root : bus = 0 ∧ slot = 0) : s.mapirqRun bus slot = { s.openInbound with fixup := true } := if_pos root

/-- R342: MAPIRQ of the function behind the link. -/
theorem State.mapirqRun_downstream (down : bus = 1 ∧ slot = 0) : s.mapirqRun bus slot = s.mapirqFinish bus slot s.cfg.irqPcie0 := by
  have root : ¬(bus = 0 ∧ slot = 0) := by simp [down]
  rw [State.mapirqRun, if_neg root, if_pos down]

/-- R343: MAPIRQ of any other (bus, slot). -/
theorem State.mapirqRun_unexpected (root : ¬(bus = 0 ∧ slot = 0)) (down : ¬(bus = 1 ∧ slot = 0)) :
    s.mapirqRun bus slot = (s.logUnexpected bus slot).mapirqFinish bus slot 0 := by
  rw [State.mapirqRun, if_neg root, if_neg down]

end

/-- Settles O29: each branch completes with its interrupt number, MAPIRQ(0,0) after its pause. -/
theorem mapirqNamesTheInterrupt : Obligations.MapirqNamesTheInterrupt := by
  intro s wdata bus devfn off wf hb up hi
  obtain ⟨-, -, -, -, nonzero, -⟩ := wf
  have rootNumbers : bus.toNat = 0 ∧ devfn.toNat / 8 = 0 ↔ bus = 0 ∧ slotOf devfn = 0 := bus_slot_zero_iff bus 0 devfn
  have downNumbers : bus.toNat = 1 ∧ devfn.toNat / 8 = 0 ↔ bus = 1 ∧ slotOf devfn = 0 := bus_slot_zero_iff bus 1 devfn
  simp only [rootNumbers, downNumbers]
  have run := exec_mapirq hb up wdata bus devfn off
  by_cases root : bus = 0 ∧ slotOf devfn = 0
  · have down : ¬(bus = 1 ∧ slotOf devfn = 0) := by simp [root]
    rw [State.mapirqRun_root _ root] at run
    simp only [if_pos root, if_neg down]
    exact ⟨_, _, run, ⟨by simp, step_resume_nil (by simpa using hi) rfl⟩, rfl, rfl, iff_of_false (Ne.symm nonzero) down⟩
  simp only [if_neg root]
  by_cases down : bus = 1 ∧ slotOf devfn = 0
  · rw [State.mapirqRun_downstream _ down] at run
    simp only [if_pos down]
    exact ⟨_, _, run, rfl, rfl, rfl, iff_of_true rfl down⟩
  · rw [State.mapirqRun_unexpected _ root down] at run
    simp only [if_neg down]
    exact ⟨_, _, run, rfl, rfl, rfl, iff_of_false (Ne.symm nonzero) down⟩

/-- R340: accesses between the interrupt number and the result. -/
theorem State.AccessesConfig.complete {s t : State} {irq : Byte} {ls : List (BitVec 26)} {tok : Word} {es : List Event}
    (h : (s.setIrq irq).AccessesConfig ls tok es t) (status aux : Byte) (rdata : Word) :
    (s.complete status aux rdata).AccessesConfig ls tok es (t.complete status aux rdata) :=
  ⟨h.hist, h.bytes, congrArg (State.complete · status aux rdata) h.frame⟩

/-- R340, R344: the end of a branch that does housekeeping: the fourteen requests, and the command completed. -/
theorem State.AccessesConfig.mapirqFinish {s : State} (wf : s.cfg.Wf) (hm : s.memWf = true) {bus : Byte} {slot : BitVec 5}
    (keeps : s.keepsHouse bus slot = true) (irq : Byte) :
    ∃ d1 d2 d3 d4 d5, (s.complete statusOk irq 0).AccessesConfig (houseLocs s.cfg bus (devfnOfSlot slot))
      (token s.cfg bus (devfnOfSlot slot) s.cfg.pciInterruptLine) (houseEvents s.cfg bus (devfnOfSlot slot) irq d1 d2 d3 d4 d5)
      (s.mapirqFinish bus slot irq) := by
  have accesses := housekeep (s := s.setIrq irq) wf hm bus (devfnOfSlot slot) irq
  rw [State.mapirqFinish, if_pos keeps]
  exact ⟨_, _, _, _, _, accesses.complete statusOk irq 0⟩

/-- Settles O30: the pause, the rest of MAPIRQ(0,0), and the other branches with and without housekeeping. -/
theorem mapirqRequestsAndFrame : Obligations.MapirqRequestsAndFrame := by
  refine ⟨fun s wdata bus devfn off wf hb up root => ?pause, fun s rest wf hm hf turn => ?resume,
    fun s wdata bus devfn off wf hm hb up root => ⟨fun keeps => ?housekeeping, fun keeps => ?logOnly⟩⟩
  case pause =>
    rw [exec_mapirq hb up, State.mapirqRun_root _ root, State.openInbound_eq (s := s.accept 0x2 wdata bus devfn off) wf rfl]
    rfl
  case resume =>
    have run := step_resume turn hf
    rw [State.mapirqResume, State.zeroBase_eq (s := { s with inputs := rest }) wf rfl] at run
    obtain ⟨d1, d2, d3, d4, d5, hist, bytes, frame⟩ := State.AccessesConfig.mapirqFinish (s := { s with
      inputs := rest
      ss := { s.ss with imbasebar0 := 0 }
      work := { s.work with rb := 0 }
      ans := 0
      hist := s.hist ++ [.ssWr s.cfg.offImbasebar0 0, .ssRd s.cfg.offImbasebar0 0] }) (bus := 0) (slot := 0) wf hm rfl 0
    exact ⟨_, d1, d2, d3, d4, d5, run, hist, bytes, congrArg (fun t : State => { t with fixup := false }) frame⟩
  case housekeeping =>
    have run := exec_mapirq hb up wdata bus devfn off
    by_cases down : bus = 1 ∧ slotOf devfn = 0
    · rw [State.mapirqRun_downstream _ down] at run
      obtain ⟨d1, d2, d3, d4, d5, hist, bytes, frame⟩ := State.AccessesConfig.mapirqFinish (s := s.accept 0x2 wdata bus devfn off)
        (bus := bus) (slot := slotOf devfn) wf hm (by simp [State.keepsHouse, down]) s.cfg.irqPcie0
      simp only [if_pos down, List.append_nil, hb]
      exact ⟨_, d1, d2, d3, d4, d5, run, hist, bytes, frame⟩
    · rw [State.mapirqRun_unexpected _ root down] at run
      obtain ⟨d1, d2, d3, d4, d5, hist, bytes, frame⟩ := State.AccessesConfig.mapirqFinish
        (s := (s.accept 0x2 wdata bus devfn off).logUnexpected bus (slotOf devfn)) (bus := bus) (slot := slotOf devfn) wf hm
        (by simp [State.keepsHouse, keeps.resolve_left down]) 0
      simp only [if_neg down, ← unexpected_arg, hb]
      exact ⟨_, d1, d2, d3, d4, d5, run, hist, bytes, frame⟩
  case logOnly =>
    obtain ⟨down, idle⟩ := not_or.mp keeps
    have skips : ¬((s.accept 0x2 wdata bus devfn off).logUnexpected bus (slotOf devfn)).keepsHouse bus (slotOf devfn) = true := by
      simp only [State.keepsHouse, Bool.or_eq_true, Bool.and_eq_true, beq_iff_eq, not_or]
      exact ⟨fun ⟨slot, either⟩ => either.elim (fun h => root ⟨h, slot⟩) (fun h => down ⟨h, slot⟩), idle⟩
    rw [exec_mapirq hb up, State.mapirqRun_unexpected _ root down, State.mapirqFinish, if_neg skips, ← unexpected_arg, hb]
    rfl

end Sys2Proof.Machine
end

section
/-! PROOF. What turns a command away: a command refused on a free port (State.accept_refuse), which commands are refused and why (reserved ops,
operations outside UP, misaligned accesses); and the statements O23, O24 and O25. -/

namespace Sys2Proof.Machine

/-- R360, R151: a command that a free port accepts and refuses leaves its operands in the latches (log 20), its status and its condition. -/
theorem State.accept_refuse {s : State} (hb : s.busy = false) (op : BitVec 4) (wdata : Word) (bus devfn : Byte) (off : BitVec 12)
    (c : Condition) (status : Byte) : (s.accept op wdata bus devfn off).refuse c status = { s with
      lat := { op := op, bus := bus, devfn := devfn, off := off, wdata := wdata }
      res := { status := status, aux := 0, rdata := 0 }
      raised := s.raised ++ [c] } := by
  simp only [State.refuse, State.raise, State.complete, State.accept, hb]

/-- R151: the op of a command word, as a number. -/
theorem commandOp_toNat (w : BitVec 64) : (w.extractLsb' 0 4).toNat = w.toNat % 16 := by
  rw [BitVec.extractLsb'_toNat, Nat.shiftRight_zero]

/-- R163: a command word with a reserved op selects nothing. -/
theorem State.commandBody_reserved (s : State) {op : BitVec 4} (h : op.toNat = 0x0 ∨ op.toNat = 0x3 ∨ op.toNat = 0x7 ∨ 0xB ≤ op.toNat)
    (wdata : Word) (bus devfn : Byte) (off : BitVec 12) : s.commandBody op wdata bus devfn off = s.illegalBody := by
  unfold State.commandBody
  split
  case h_9 => rfl
  all_goals omega

/-- R163, R367: the operation of a reserved row, on a free port. -/
theorem State.onPort_illegal {s : State} (hb : s.busy = false) (op : BitVec 4) (wdata : Word) (bus devfn : Byte) (off : BitVec 12) :
    (s.onPort fun s => (s.accept op wdata bus devfn off).illegalBody) = { s with
      lat := { op := op, bus := bus, devfn := devfn, off := off, wdata := wdata }
      res := { status := 0x81, aux := 0, rdata := 0 }
      raised := s.raised ++ [.illegalOp] } :=
  (State.onPort_free hb _).trans (State.accept_refuse hb ..)

/-- Settles O23: every word with a reserved op, and the five rows that such words decode to. -/
theorem illegalOpIsRefused : Obligations.IllegalOpIsRefused := by
  have high : ∀ lo : BitVec 2, 3#2 ++ lo = BitVec.ofNat 4 (12 + lo.toNat) := by decide
  refine ⟨fun s w hb reserved => ⟨decodeCommand w, rfl, ?_⟩, fun s lo wdata bus devfn off hb => ?_⟩
  · rw [← commandOp_toNat] at reserved
    simp only [exec_decodeCommand, State.commandBody_reserved _ reserved, State.onPort_illegal hb]
  · have row (op : BitVec 4) := congrArg (Host.Outcome.next (φ := Fault) (ρ := Refusal)) (State.onPort_illegal hb op wdata bus devfn off)
    exact ⟨row 0x0, row 0x3, row 0x7, row 0xB, high lo ▸ row (3#2 ++ lo)⟩

/-- R310: an access that is turned away is a refusal. -/
theorem State.cfgrdBody_refused {s : State} {w : Width} {off : BitVec 12} {c : Condition} {status : Byte}
    (h : s.cfgRefusal w off = some (c, status)) (bus devfn : Byte) : s.cfgrdBody w bus devfn off = s.refuse c status := by
  rw [State.cfgrdBody, h]

theorem State.cfgwrBody_refused {s : State} {w : Width} {off : BitVec 12} {c : Condition} {status : Byte}
    (h : s.cfgRefusal w off = some (c, status)) (bus devfn : Byte) (v : Word) : s.cfgwrBody w bus devfn off v = s.refuse c status := by
  rw [State.cfgwrBody, h]

/-- R368, R370: outside UP an access is turned away before its alignment is looked at. -/
theorem State.cfgRefusal_notUp {s : State} (down : s.ls ≠ .up) (w : Width) (off : BitVec 12) :
    s.cfgRefusal w off = some (.notUp, statusNotUp) := if_pos down

/-- R369, R104: in UP the policy `refuse` turns a misaligned access away. -/
theorem State.cfgRefusal_misaligned {s : State} {w : Width} {off : BitVec 12} (up : s.ls = .up) (policy : s.cfg.misalignPolicy = .refuse)
    (misaligned : off.toNat % widthBytes w ≠ 0) : s.cfgRefusal w off = some (.misaligned, statusMisaligned) := by
  simp [State.cfgRefusal, aligned_eq, up, policy, misaligned]

/-- R368, R345: what an access or a MAPIRQ does outside UP. -/
theorem State.commandBody_notUp {s : State} (down : s.ls ≠ .up) {op : BitVec 4} (h : op.toNat ∈ [0x2, 0x4, 0x5, 0x6, 0x8, 0x9, 0xA])
    (wdata : Word) (bus devfn : Byte) (off : BitVec 12) : s.commandBody op wdata bus devfn off = s.refuse .notUp statusNotUp := by
  unfold State.commandBody
  split
  case h_2 => exact if_pos down
  case h_3 | h_4 | h_5 => exact State.cfgrdBody_refused (State.cfgRefusal_notUp down ..) ..
  case h_6 | h_7 | h_8 => exact State.cfgwrBody_refused (State.cfgRefusal_notUp down ..) ..
  case h_1 attach => simp [attach] at h
  case h_9 => simp_all

/-- Settles O24: of the seven operations MAPIRQ looks at the Link State itself, and the six accesses look at it before all else. -/
theorem notUpIsRefused : Obligations.NotUpIsRefused := by
  rintro s w _ hb down ⟨⟩ hop
  rw [← commandOp_toNat] at hop
  rw [exec_decodeCommand_free w hb, State.commanded, State.commandBody_notUp (s := s.accepted w) down hop]
  exact congrArg _ (State.accept_refuse hb ..)

/-- R152: a read command on a free port. -/
theorem exec_cfgrdInstr_free {s : State} (hb : s.busy = false) (w : Width) (wdata : Word) (bus devfn : Byte) (off : BitVec 12) :
    exec (cfgrdInstr w wdata bus devfn off) s = .next ((s.accept (cfgrdOp w) wdata bus devfn off).cfgrdBody w bus devfn off) := by
  cases w <;> exact congrArg _ (State.onPort_free hb _)

/-- R152: a write command on a free port. -/
theorem exec_cfgwrInstr_free {s : State} (hb : s.busy = false) (w : Width) (wdata : Word) (bus devfn : Byte) (off : BitVec 12) :
    exec (cfgwrInstr w wdata bus devfn off) s = .next ((s.accept (cfgwrOp w) wdata bus devfn off).cfgwrBody w bus devfn off wdata) := by
  cases w <;> exact congrArg _ (State.onPort_free hb _)

/-- Settles O25: the same check turns the read and the write away. -/
theorem misalignedIsRefused : Obligations.MisalignedIsRefused := by
  intro s w wdata bus devfn off hb up policy misaligned
  have refusal (op : BitVec 4) : (s.accept op wdata bus devfn off).cfgRefusal w off = some (.misaligned, statusMisaligned) :=
    State.cfgRefusal_misaligned up policy misaligned
  rw [exec_cfgrdInstr_free hb, exec_cfgwrInstr_free hb, State.cfgrdBody_refused (refusal _), State.cfgwrBody_refused (refusal _),
    State.accept_refuse hb, State.accept_refuse hb]
  exact ⟨rfl, rfl⟩

end Sys2Proof.Machine
end

section
/-! PROOF. Which steps write PHYCFG (State.phyWrites): only the three CALIBRATE rows, each after its wait has come back idle; and the statement
O17. -/

namespace Sys2Proof.Machine

/-- R405: of two safe histories the second needs nothing of the first. -/
theorem phySafeFrom_append {c : Cfg} {es fs : List Event} {idle : Bool} (h : phySafeFrom c idle es = true)
    (k : phySafeFrom c false fs = true) : phySafeFrom c idle (es ++ fs) = true := by
  induction es generalizing idle with
  | nil => cases fs <;> simp_all [phySafeFrom]
  | cons e es ih =>
    rw [phySafeFrom, Bool.and_eq_true] at h
    rw [List.cons_append, phySafeFrom, Bool.and_eq_true]
    exact ⟨h.1, ih h.2⟩

/-- R405: a history that writes no PHY control word is safe. -/
theorem phySafeFrom_of_no_write {c : Cfg} {es : List Event} {idle : Bool} (h : es.filter (Event.isPhyWrite c) = []) :
    phySafeFrom c idle es = true := by
  induction es generalizing idle with
  | nil => rfl
  | cons e es ih =>
    rw [List.filter_eq_nil_iff, List.forall_mem_cons] at h
    simp [phySafeFrom, h.1, ih (List.filter_eq_nil_iff.mpr h.2)]

/-- R221: the busy polls of a wait read PHYCFG and delay. -/
theorem busyTrail_no_write (c : Cfg) (vs : List Word) : (busyTrail c vs).filter (Event.isPhyWrite c) = [] := by
  induction vs with
  | nil => rfl
  | cons v vs ih => exact ih

/-- R222, R405: the control word right after a poll that saw the busy flag clear. -/
theorem phySafeFrom_write_after_idle {c : Cfg} {v : Word} (idle : v &&& c.mPhyBusy = 0) (word n : Word) :
    phySafeFrom c false [.ssRd c.offPhycfg v, .ssWr c.offPhycfg word, .delay n] = true := by
  simp [phySafeFrom, Event.isPhyWrite, Event.sawIdle, idle]

/-- R222: a CALIBRATE writes its control word only after its first wait has come back idle. -/
theorem State.calibrate_phySafe {s : State} (wf : s.cfg.Wf) (a d : Byte) :
    ∃ es, (s.calibrate a d).hist = s.hist ++ es ∧ phySafeFrom s.cfg false es = true := by
  have polls (vs : List Word) : phySafeFrom s.cfg false (busyTrail s.cfg vs) = true := phySafeFrom_of_no_write (busyTrail_no_write s.cfg vs)
  have waits (vs : List Word) (v : Word) : phySafeFrom s.cfg false (waitTrail s.cfg vs v) = true :=
    phySafeFrom_append (polls vs) (phySafeFrom_of_no_write rfl)
  obtain ⟨t, vs, v, run, -, ends⟩ := calibrateWaitsWritesWaits s a d wf
  obtain rfl : s.calibrate a d = t := Host.Outcome.next.inj run
  rcases ends with ⟨-, ht⟩ | ⟨⟨-, -, idle⟩, ws, w, done, -, -, ht⟩
  · exact ⟨_, (congrArg State.hist ht).trans (List.append_assoc ..), phySafeFrom_append (waits vs v) (phySafeFrom_of_no_write rfl)⟩
  · have written := phySafeFrom_write_after_idle idle (phyControl s.cfg a d) s.cfg.tPhywr
    have logged : phySafeFrom s.cfg false (if done then [] else [.log 1 (BitVec.ofNat 32 (256 * a.toNat + 1))]) = true := by
      cases done <;> exact phySafeFrom_of_no_write rfl
    have all := phySafeFrom_append (polls vs) (phySafeFrom_append written (phySafeFrom_append (waits ws w) logged))
    refine ⟨_, (congrArg State.hist ht).trans ?_, all⟩
    simp only [waitTrail, List.append_assoc, List.cons_append, List.nil_append]

/-- R405: the writes of PHYCFG in the history. -/
def State.phyWrites (c : Cfg) (s : State) : List Event := s.hist.filter (Event.isPhyWrite c)

/-- R405: a way that only appends to the history, and no write of PHYCFG, is safe. -/
theorem State.phySafe_of_phyWrites {s t : State} {c : Cfg} {es : List Event} (hh : t.hist = s.hist ++ es)
    (h : t.phyWrites c = s.phyWrites c) : phySafeFrom c false es = true := by
  rw [State.phyWrites, hh, List.filter_append] at h
  exact phySafeFrom_of_no_write (List.append_right_eq_self.mp h)

/-- An operation that issues nothing. -/
theorem State.phyWrites_quiet {s t : State} {c : Cfg} (hh : t.hist = s.hist := by simp) : t.phyWrites c = s.phyWrites c :=
  congrArg (List.filter (Event.isPhyWrite c)) hh

/-- An operation that issues one request, and not a write of PHYCFG. -/
theorem State.phyWrites_emit {s t : State} {c : Cfg} {e : Event} (hh : t.hist = s.hist ++ [e]) (he : e.isPhyWrite c = false := by rfl) :
    t.phyWrites c = s.phyWrites c := by
  simp [State.phyWrites, hh, he]

section
variable (s : State) (c : Cfg) (bus devfn : Byte) (off : BitVec 12)

@[simp] theorem State.complete_phyWrites (status aux : Byte) (rdata : Word) :
    (s.complete status aux rdata).phyWrites c = s.phyWrites c := rfl

@[simp] theorem State.setIrq_phyWrites (irq : Byte) : (s.setIrq irq).phyWrites c = s.phyWrites c := rfl

@[simp] theorem State.brWr32_phyWrites (off : Half) (v : Word) : (s.brWr32 off v).phyWrites c = s.phyWrites c := phyWrites_emit rfl

@[simp] theorem State.cfgFetch_phyWrites : (s.cfgFetch bus devfn off).phyWrites c = s.phyWrites c := by
  have read : (s.cfgFetch bus devfn off).phyWrites c = (s.cfgSelect bus devfn off).phyWrites c := phyWrites_emit rfl
  exact read.trans (phyWrites_emit rfl)

@[simp] theorem State.cfgRead_phyWrites (w : Width) : (s.cfgRead w bus devfn off).phyWrites c = s.phyWrites c := by
  cases w <;> exact s.cfgFetch_phyWrites c bus devfn off

@[simp] theorem State.cfgWrite_phyWrites (w : Width) (v : Word) : (s.cfgWrite w bus devfn off v).phyWrites c = s.phyWrites c := by
  cases w with
  | dword => exact (State.brWr32_phyWrites ..).trans (phyWrites_emit rfl)
  | byte | half => exact (State.brWr32_phyWrites ..).trans (s.cfgFetch_phyWrites c bus devfn off)

@[simp] theorem State.readCommand_phyWrites : (s.readCommand bus devfn).phyWrites c = s.phyWrites c :=
  s.cfgRead_phyWrites c bus devfn s.cfg.pciCommand .half

@[simp] theorem State.housekeep_phyWrites (irq : Byte) : (s.housekeep bus devfn irq).phyWrites c = s.phyWrites c := by
  simp [State.housekeep]

@[simp] theorem State.mapirqFinish_phyWrites (slot : BitVec 5) (irq : Byte) :
    (s.mapirqFinish bus slot irq).phyWrites c = s.phyWrites c := by
  unfold State.mapirqFinish
  split <;> simp

end

section
variable {s : State} (wf : s.cfg.Wf)
include wf

/-- R341: a write of BAR0SETUP is none of PHYCFG. -/
theorem State.openInbound_phyWrites : s.openInbound.phyWrites s.cfg = s.phyWrites s.cfg :=
  phyWrites_emit rfl (by simp [Event.isPhyWrite, wf.ssDistinct])

/-- R341, R340: the rest of a MAPIRQ(0,0) writes IMBASEBAR0 and configuration space. -/
theorem State.mapirqResume_phyWrites : s.mapirqResume.phyWrites s.cfg = s.phyWrites s.cfg := by
  have based : s.zeroBase.phyWrites s.cfg = s.phyWrites s.cfg := by
    rw [State.zeroBase_eq wf rfl]
    simp [State.phyWrites, Event.isPhyWrite, wf.ssDistinct]
  exact (s.zeroBase.mapirqFinish_phyWrites s.cfg 0 0 0).trans based

theorem State.mapirqBody_phyWrites (bus : Byte) (slot : BitVec 5) : (s.mapirqBody bus slot).phyWrites s.cfg = s.phyWrites s.cfg := by
  unfold State.mapirqBody
  split
  · exact phyWrites_quiet
  · unfold State.mapirqRun
    split
    · exact State.openInbound_phyWrites wf
    · split
      · exact State.mapirqFinish_phyWrites ..
      · exact (State.mapirqFinish_phyWrites ..).trans (phyWrites_emit rfl)

/-- R152: no command writes PHYCFG. -/
theorem State.commanded_phyWrites (w : BitVec 64) : (s.commanded w).phyWrites s.cfg = s.phyWrites s.cfg := by
  have read (t : State) (wd : Width) (bus devfn : Byte) (off : BitVec 12) : (t.cfgrdBody wd bus devfn off).phyWrites s.cfg = t.phyWrites s.cfg := by
    unfold State.cfgrdBody
    split
    · exact phyWrites_quiet
    · simp
  have write (t : State) (wd : Width) (bus devfn : Byte) (off : BitVec 12) (v : Word) :
      (t.cfgwrBody wd bus devfn off v).phyWrites s.cfg = t.phyWrites s.cfg := by
    unfold State.cfgwrBody
    split
    · exact phyWrites_quiet
    · simp
  exact State.commandBody_forms (s.accepted w) _ _ _ _ _ (P := fun t => t.phyWrites s.cfg = s.phyWrites s.cfg) phyWrites_quiet
    (State.mapirqBody_phyWrites (s := s.accepted w) wf _ _) (fun _ => read ..) (fun _ => write ..) phyWrites_quiet

/-- R243, R245: of the rows only the three CALIBRATE rows write PHYCFG. -/
theorem row_phyWrites {n : BitVec 6} {i : Instr} {t : State} (hd : decodeStep n = .ok i) (hx : exec i s = .next t) :
    t.phyWrites s.cfg = s.phyWrites s.cfg ∨ ∃ a d m, t = (s.calibrate a d).goto m := by
  have distinct := wf.ssDistinct
  have hn := encode_decodeStep hd
  cases i with
  | seq06 | seq07 | seq08 => exact .inr ⟨_, _, _, (Host.Outcome.next.inj hx).symm⟩
  | seqIdle => exact .inl (Host.Outcome.next.inj hx ▸ rfl)
  | seq01 | seq02 | seq03 | seq04 | seq05 | seq09 | seq10 | seq11 | seq13 | seq14 | seq15 | seq16 | seq17 | seq18 | seq19 | seq20
  | seq21 | seq22 | seq23 | seq24 | seq26 | seq27 | seq28 | seq29 | seq30 | seq31 | seq38 =>
    exact .inl (Host.Outcome.next.inj hx ▸ State.phyWrites_emit rfl)
  | seq12 | seq25 =>
    have sampled := Host.Outcome.next.inj hx
    split at sampled <;> exact .inl (sampled ▸ State.phyWrites_emit rfl)
  | seq32 | seq33 | seq34 | seq35 | seq36 =>
    exact .inl (Host.Outcome.next.inj hx ▸ State.phyWrites_emit rfl (by simp [Event.isPhyWrite, distinct]))
  | seq37 =>
    have read : (s.brRd32 s.cfg.offPcimsk).phyWrites s.cfg = s.phyWrites s.cfg := State.phyWrites_emit rfl
    exact .inl (Host.Outcome.next.inj hx ▸ (State.brWr32_phyWrites ..).trans read)
  | _ => cases hn

end

/-- R405: a step that is not a hardware reset writes no PHY control word, or is one CALIBRATE. -/
theorem step_phyWrites {s t : State} (wf : s.cfg.Wf) (hout : s.outsideOnly = true) (hr : s.notResetting = true) (h : step s = .next t) :
    t.phyWrites s.cfg = s.phyWrites s.cfg ∨ ∃ rest a d m, t = (State.calibrate { s with inputs := rest } a d).goto m := by
  rcases step_cases s hout with ⟨rest, hi, -⟩ | ⟨w, rest, hit, addr, -, e⟩ | ⟨w, rest, -, hb, e⟩ | ⟨rest, -, -, e⟩
  · simp [State.notResetting, hi] at hr
  · exact .inl (Host.Outcome.next.inj (e.symm.trans h) ▸ rfl)
  · obtain rfl := Host.Outcome.next.inj ((e.trans (exec_decodeCommand_free w hb)).symm.trans h)
    exact .inl (State.commanded_phyWrites (s := { s with inputs := rest }) wf w)
  · rw [e] at h
    split at h
    · exact .inl (Host.Outcome.next.inj h ▸ State.mapirqResume_phyWrites (s := { s with inputs := rest }) wf)
    · split at h
      · next i hd => exact (row_phyWrites (s := { s with inputs := rest }) wf hd h).imp_right fun cal => ⟨rest, cal⟩
      · cases h

/-- Settles O17: a step that is no CALIBRATE writes no PHY control word, and a CALIBRATE writes its own after an idle poll. -/
theorem noWriteIntoABusyPhy : Obligations.NoWriteIntoABusyPhy := by
  intro s t wf ctl hout hr h
  rcases step_phyWrites wf hout hr h with silent | ⟨rest, a, d, m, rfl⟩
  · obtain ⟨es, hes, -⟩ := requestsStayInRange s t ctl hout hr h
    exact ⟨es, hes, State.phySafe_of_phyWrites hes silent⟩
  · exact State.calibrate_phySafe (s := { s with inputs := rest }) wf a d

end Sys2Proof.Machine
end

section
/-! PROOF. A command word at a locked port, and what a hardware reset forgets: the statements O6 and O8. -/

namespace Sys2Proof.Machine

/-- R415: a command on a locked port changes nothing. -/
theorem State.onPort_busy {s : State} (h : s.busy = true) (f : State → State) : s.onPort f = s := if_pos h

/-- Settles O6: a held command word leaves the block its own turn, and executed on a locked port it is the identity. -/
theorem aCommandIsHeldWhileBusy : Obligations.ACommandIsHeldWhileBusy := by
  have held {s : State} {w : BitVec 64} {rest : List Input} (hb : s.busy = true) (hi : s.inputs = .word (.command w) :: rest) :
      s.turnNext s.inputs := .inr (.inr ⟨hb, rfl, w, rest, hi⟩)
  refine ⟨fun s w rest i hb hf hi hd => step_row (held hb hi) hf hd, fun s w rest hb hf hi => step_resume (held hb hi) hf,
    fun s w i hb hd => ?_⟩
  obtain rfl : decodeCommand w = i := Except.ok.inj hd
  rw [exec_decodeCommand, State.onPort_busy hb]

/-- R400, R401, R419: hardware reset looks at the parameters, the count of resets, and what the outside still presents and answers. -/
theorem State.hardwareReset_congr {s t : State} (cfg : t.cfg = s.cfg) (epoch : t.epoch = s.epoch) (inputs : t.inputs = s.inputs)
    (draws : t.draws = s.draws) (drawCount : t.drawCount = s.drawCount) (resOks : t.resOks = s.resOks)
    (resOkCount : t.resOkCount = s.resOkCount) : t.hardwareReset = s.hardwareReset := by
  simp only [State.hardwareReset, cfg, epoch, inputs, draws, drawCount, resOks, resOkCount]

/-- Settles O8: the reset state is made of what hardware reset looks at, and of nothing else. -/
theorem hardwareResetCarriesNothingOver : Obligations.HardwareResetCarriesNothingOver := by
  refine ⟨fun s rest hi => ⟨_, step_reset hi, rfl, rfl, rfl, rfl, rfl, rfl, rfl, rfl⟩,
    fun s s' head cfg epoch inputs draws drawCount resOks resOkCount => ?_⟩
  obtain ⟨rest, hi⟩ := List.head?_eq_some_iff.mp head
  rw [step_reset hi, step_reset (inputs.trans hi)]
  exact congrArg _ (State.hardwareReset_congr cfg epoch rfl draws drawCount resOks resOkCount)

end Sys2Proof.Machine
end
